-- ==== Sys2Proof/Word.lean ====
section
/-! DEFINITION. The Word, the block's atomic unit of exchange (R5 `WORD_BITS`, R20). -/

namespace Sys2Proof

/-- A 16-bit unsigned value, bit 0 the least significant (R9, R20). -/
abbrev Word := BitVec 16

end Sys2Proof
end

