-- ==== Sys2Proof/Config.lean ====
section
/-! DEFINITION. The names the spec fixes (controllers, the 33 command classes of R80), the configuration record `cfg` of
R7, the reference configuration `REFCFG` of R81, the events of the history (R13), and the free value of the step: what the
peer answers to a word exchange (R57). -/

namespace Sys2Proof

/-- The two controllers at the far side of the link (R20). "No controller" (`NONE`) is `none` of `Option Controller`. -/
inductive Controller where
  | hk
  | trg
deriving DecidableEq, Repr

/-- The 33 named command classes, in the order of R80. Class 0, `UNKNOWN`, is `none` of `Option CmdClass`. -/
inductive CmdClass where
  | hkReset | hkPwr | hkPres | hkVolt | hkCurr | hkEnv | hkBrd | hkAdct | hkCalt | hkPbst | hkDqrst | hkCkrst | hkI2crst
  | trNsset | trNsrd | trMask0 | trMask1 | trMask2 | trMask3 | trLttrd | trHold | trSwtrg | trHwen | trHwdis | trCntrst
  | trHit0 | trHit1 | trHit2 | trHit3 | trArrcfg | trTack | trSched | trDiag
deriving DecidableEq, Repr

/-- Every class, in the order of R80. -/
def CmdClass.all : List CmdClass :=
  [.hkReset, .hkPwr, .hkPres, .hkVolt, .hkCurr, .hkEnv, .hkBrd, .hkAdct, .hkCalt, .hkPbst, .hkDqrst, .hkCkrst, .hkI2crst] ++
  [.trNsset, .trNsrd, .trMask0, .trMask1, .trMask2, .trMask3, .trLttrd, .trHold, .trSwtrg, .trHwen, .trHwdis, .trCntrst] ++
  [.trHit0, .trHit1, .trHit2, .trHit3, .trArrcfg, .trTack, .trSched, .trDiag]

/-- The place of a class in the table of R80, counted from 0. -/
def CmdClass.index : CmdClass → Fin 33
  | .hkReset => 0 | .hkPwr => 1 | .hkPres => 2 | .hkVolt => 3 | .hkCurr => 4 | .hkEnv => 5 | .hkBrd => 6
  | .hkAdct => 7 | .hkCalt => 8 | .hkPbst => 9 | .hkDqrst => 10 | .hkCkrst => 11 | .hkI2crst => 12
  | .trNsset => 13 | .trNsrd => 14 | .trMask0 => 15 | .trMask1 => 16 | .trMask2 => 17 | .trMask3 => 18
  | .trLttrd => 19 | .trHold => 20 | .trSwtrg => 21 | .trHwen => 22 | .trHwdis => 23 | .trCntrst => 24
  | .trHit0 => 25 | .trHit1 => 26 | .trHit2 => 27 | .trHit3 => 28 | .trArrcfg => 29 | .trTack => 30
  | .trSched => 31 | .trDiag => 32

/-- The class number `CLS` of R80: 1 to 33. -/
def CmdClass.id (k : CmdClass) : Nat := k.index.val + 1

/-- The two command-word formats of R74: `CW-A` and `CW-B`. -/
inductive CwFormat where
  | plain
  | banked
deriving DecidableEq, Repr

/-- The `fmt` column of R80. -/
def CmdClass.format : CmdClass → CwFormat
  | .hkVolt | .hkCurr => .banked
  | .hkReset | .hkPwr | .hkPres | .hkEnv | .hkBrd | .hkAdct | .hkCalt | .hkPbst | .hkDqrst | .hkCkrst | .hkI2crst
  | .trNsset | .trNsrd | .trMask0 | .trMask1 | .trMask2 | .trMask3 | .trLttrd | .trHold | .trSwtrg | .trHwen | .trHwdis
  | .trCntrst | .trHit0 | .trHit1 | .trHit2 | .trHit3 | .trArrcfg | .trTack | .trSched | .trDiag => .plain

/-- The `ctrl` column of R80. -/
def CmdClass.controller : CmdClass → Controller
  | .hkReset | .hkPwr | .hkPres | .hkVolt | .hkCurr | .hkEnv | .hkBrd | .hkAdct | .hkCalt | .hkPbst | .hkDqrst | .hkCkrst
  | .hkI2crst => .hk
  | .trNsset | .trNsrd | .trMask0 | .trMask1 | .trMask2 | .trMask3 | .trLttrd | .trHold | .trSwtrg | .trHwen | .trHwdis
  | .trCntrst | .trHit0 | .trHit1 | .trHit2 | .trHit3 | .trArrcfg | .trTack | .trSched | .trDiag => .trg

/-- The `phys` column of R80: the commands with physical, non-reversible effects (R220 class (d)). -/
def CmdClass.physical : CmdClass → Bool
  | .hkReset | .hkPwr | .hkCalt | .hkDqrst | .hkCkrst | .hkI2crst => true
  | .hkPres | .hkVolt | .hkCurr | .hkEnv | .hkBrd | .hkAdct | .hkPbst
  | .trNsset | .trNsrd | .trMask0 | .trMask1 | .trMask2 | .trMask3 | .trLttrd | .trHold | .trSwtrg | .trHwen | .trHwdis
  | .trCntrst | .trHit0 | .trHit1 | .trHit2 | .trHit3 | .trArrcfg | .trTack | .trSched | .trDiag => false

/-- The four analog readback classes (R159), the ones whose response is `RS-ANALOG` (R78). -/
inductive AnalogClass where
  | volt | curr | env | brd
deriving DecidableEq, Repr

/-- The three kinds of rail the document names a calibration scale for (R7). -/
inductive Rail where
  | v12
  | lowVoltage
  | environment
deriving DecidableEq, Repr

/-- A positive rational scale `num / den` (R7). -/
structure Scale where
  num : Nat
  den : Nat
deriving DecidableEq, Repr

/-- One row of `cfg.SCALE_OF` that differs from its class's default. -/
structure ScaleRow where
  cls : AnalogClass
  sub : BitVec 8
  j : Fin 8
  rail : Rail
deriving DecidableEq, Repr

/-- Where the presence bit of one slot sits: a response position and a bit number (R7 `cfg.PRES`). -/
structure PresBit where
  pos : Fin 11
  bit : Fin 16
deriving DecidableEq, Repr

/-- The 8 payload Words `D1..D8` of a message (R70, R11). -/
structure Payload where
  d1 : Word
  d2 : Word
  d3 : Word
  d4 : Word
  d5 : Word
  d6 : Word
  d7 : Word
  d8 : Word
deriving DecidableEq, Repr

/-- The payload as the list of its Words, `D1` first. -/
def Payload.toList (d : Payload) : List Word := [d.d1, d.d2, d.d3, d.d4, d.d5, d.d6, d.d7, d.d8]

/-- The configuration record `cfg` of R7, as plain data. `ops` holds `cfg.OP_<name>` in the order of R80; `packTack` holds
`cfg.PACK_TACK(type, mode)` at `4 * type + mode`; `railVolt` to `railBrd` and `scaleRows` together are `cfg.SCALE_OF`;
`tSync` and `tAdc` are durations in nanoseconds. -/
structure Cfg where
  somHk : Word
  eomHk : Word
  somTrg : Word
  eomTrg : Word
  nullWord : Word
  fillWord : Word
  route : Vector (Option Controller) 16
  ops : Vector Word 33
  numAbank : Nat
  scale12V : Scale
  scaleLv : Scale
  scaleEnv : Scale
  railVolt : Rail
  railCurr : Rail
  railEnv : Rail
  railBrd : Rail
  scaleRows : List ScaleRow
  pres : Vector PresBit 32
  packTack : Vector Word 16
  tSync : Nat
  tAdc : Nat
deriving DecidableEq, Repr

/-- `cfg.SOM[t]` (R7). -/
def Cfg.som (c : Cfg) : Controller → Word
  | .hk => c.somHk
  | .trg => c.somTrg

/-- `cfg.EOM[t]` (R7). -/
def Cfg.eom (c : Cfg) : Controller → Word
  | .hk => c.eomHk
  | .trg => c.eomTrg

/-- `cfg.OP_<name>` (R7, R80). -/
def Cfg.op (c : Cfg) (k : CmdClass) : Word := c.ops[k.index]

/-- The mask of a class's pattern (R74): all 16 bits for `CW-A`, the high byte for `CW-B`. -/
def CmdClass.matchMask (k : CmdClass) : Word :=
  match k.format with
  | .plain => 0xFFFF#16
  | .banked => 0xFF00#16

/-- Whether a Word matches the pattern of a class (R74, R122). -/
def Cfg.cmdMatches (c : Cfg) (k : CmdClass) (cw : Word) : Bool := (cw &&& k.matchMask) == c.op k

/-- The command words of `REFCFG` (R81), in the order of R80; `HK_VOLT` and `HK_CURR` with bank 0. -/
def refOps : Vector Word 33 := #v[
  0x1000, 0x1100, 0x2000, 0x3000, 0x3100, 0x3200, 0x3300, 0x1200, 0x1300, 0x2100, 0x1400, 0x1500, 0x1600,
  0x8000, 0x8100, 0xA000, 0xA001, 0xA002, 0xA003, 0x8200, 0x8300, 0x9000, 0x9100, 0x9200, 0x8400,
  0xB000, 0xB001, 0xB002, 0xB003, 0x9300, 0x9400, 0x8500, 0xC000]

/-- `REFCFG` (R81): every number is the spec's own choice, none a value of real hardware. -/
def refCfg : Cfg where
  somHk := 0x5A01
  eomHk := 0x5AF1
  somTrg := 0x5A02
  eomTrg := 0x5AF2
  nullWord := 0x0000
  fillWord := 0x0000
  route := #v[none, some .hk, some .hk, some .hk, none, none, none, none,
    some .trg, some .trg, some .trg, some .trg, some .trg, none, none, none]
  ops := refOps
  numAbank := 4
  scale12V := ⟨1, 128⟩
  scaleLv := ⟨1, 1024⟩
  scaleEnv := ⟨1, 16⟩
  railVolt := .v12
  railCurr := .v12
  railEnv := .environment
  railBrd := .lowVoltage
  scaleRows := []
  pres := Vector.ofFn fun s => ⟨Fin.ofNat 11 (2 + s.val / 16), Fin.ofNat 16 s.val⟩
  packTack := Vector.ofFn fun i => BitVec.ofNat 16 i.val
  tSync := 20000
  tAdc := 10000

/-- What one word exchange yields (R50): a received Word, or a link failure. -/
inductive LinkAnswer where
  | ok (r : Word)
  | fail
deriving DecidableEq, Repr, Inhabited

/-- One event of the history (R13); the duration of a settle wait is in nanoseconds. -/
inductive Event where
  | xchg (sent received : Word)
  | xchgFail (sent : Word)
  | settle (duration : Nat)
deriving DecidableEq, Repr

/-- FREE VALUE (assumption log 2): what the peer answers to an exchange for which the state names no answer (R57: "a black
box that, for each `LinkXchg(w)`, sees the whole history and returns `Ok(r)` for any Word `r`, or `Fail`"). Its arguments
are the number of the exchange since power-on, the history so far and the Word sent. Nothing constrains it. -/
opaque Config.peerAnswer : Nat → List Event → Word → LinkAnswer

end Sys2Proof
end

