-- ==== Sys2Proof/Syntax.lean ====
section
/-! DEFINITION. The instructions: one constructor for each row of spec/opcode_table.json. -/

namespace Sys2Proof

/-- The 11 requests of R85 and the 33 command words of R80 (R17). A request's operands are Words, as its descriptor gives
them, so that an operand out of its range can be written down (R85, R90). A command word is sent by `XFER` (R124): its
constructor carries the 8 payload Words of that request, and, for the two banked classes, the bank (R74). `xfer` itself
stands for an `XFER` whose command word is of no named class (R82 `UNKNOWN`). -/
inductive Instr where
  | xfer (cw : Word) (d : Payload)
  | dec (cw : Word)
  | tmdef
  | tmsgl (slot asic group : Word)
  | tmblk (vlo vhi : Word)
  | tmsend
  | hpcap
  | tackset (ty mo : Word)
  | schedset (t3 t2 t1 t0 : Word)
  | cntrst
  | synchs (t3 t2 t1 t0 : Word)
  | hkReset (d : Payload)
  | hkPwr (d : Payload)
  | hkPres (d : Payload)
  | hkVolt (bank : BitVec 8) (d : Payload)
  | hkCurr (bank : BitVec 8) (d : Payload)
  | hkEnv (d : Payload)
  | hkBrd (d : Payload)
  | hkAdct (d : Payload)
  | hkCalt (d : Payload)
  | hkPbst (d : Payload)
  | hkDqrst (d : Payload)
  | hkCkrst (d : Payload)
  | hkI2crst (d : Payload)
  | trNsset (d : Payload)
  | trNsrd (d : Payload)
  | trMask0 (d : Payload)
  | trMask1 (d : Payload)
  | trMask2 (d : Payload)
  | trMask3 (d : Payload)
  | trLttrd (d : Payload)
  | trHold (d : Payload)
  | trSwtrg (d : Payload)
  | trHwen (d : Payload)
  | trHwdis (d : Payload)
  | trCntrst (d : Payload)
  | trHit0 (d : Payload)
  | trHit1 (d : Payload)
  | trHit2 (d : Payload)
  | trHit3 (d : Payload)
  | trArrcfg (d : Payload)
  | trTack (d : Payload)
  | trSched (d : Payload)
  | trDiag (d : Payload)
deriving DecidableEq, Repr

end Sys2Proof
end

