-- ==== Sys2Proof/WellFormed.lean ====
section
/-! DEFINITION. When a configuration is well formed (R8, with the ranges of R7), and when an instruction is. -/

namespace Sys2Proof

/-- R8 item 1: the start markers differ. -/
def Cfg.startMarkersDiffer (c : Cfg) : Bool := c.somHk != c.somTrg

/-- Two classes' patterns have no Word in common: some bit that both look at differs. -/
def Cfg.patternsDisjoint (c : Cfg) (k l : CmdClass) : Bool :=
  ((c.op k ^^^ c.op l) &&& k.matchMask &&& l.matchMask) != 0#16

/-- R8 item 2: the 33 patterns are pairwise disjoint. -/
def Cfg.allDisjoint (c : Cfg) : Bool :=
  CmdClass.all.all fun k => CmdClass.all.all fun l => k == l || c.patternsDisjoint k l

/-- R8 item 3: every named command's high nibble routes to its controller. -/
def Cfg.routesNamed (c : Cfg) : Bool :=
  CmdClass.all.all fun k => c.route[((c.op k).extractLsb' 12 4).toFin] == some k.controller

/-- R8 item 4: `PACK_TACK` is injective and every result is below 16. -/
def Cfg.tackPacks (c : Cfg) : Bool :=
  c.packTack.toList.all (fun w => decide (w.toNat < 16)) && decide c.packTack.toList.Nodup

/-- R8 item 5, with the range of R7: `PRES` is injective and its positions are 2 to 9. -/
def Cfg.presInjective (c : Cfg) : Bool :=
  c.pres.toList.all (fun p => decide (2 ≤ p.pos.val ∧ p.pos.val ≤ 9)) && decide c.pres.toList.Nodup

/-- R8 item 6: the two bank patterns have low byte 0. -/
def Cfg.banksLowByteZero (c : Cfg) : Bool :=
  (c.op .hkVolt).extractLsb' 0 8 == 0#8 && (c.op .hkCurr).extractLsb' 0 8 == 0#8

/-- R7: `NUM_ABANK` is 1 to 256 and the three scales are positive rationals. -/
def Cfg.rangesHold (c : Cfg) : Bool :=
  decide (1 ≤ c.numAbank ∧ c.numAbank ≤ 256) &&
    [c.scale12V, c.scaleLv, c.scaleEnv].all fun q => decide (0 < q.num ∧ 0 < q.den)

/-- R8: what a model may assume of `cfg`, and nothing more. -/
def Cfg.wf (c : Cfg) : Bool :=
  c.startMarkersDiffer && c.allDisjoint && c.routesNamed && c.tackPacks && c.presInjective && c.banksLowByteZero &&
    c.rangesHold

/-- An instruction is well formed under `cfg` when it is the reading of some descriptor: the constructor `xfer` stands for
command words of no named class only, since an `XFER` of a named command word is read as that command. Operands are
whole Words, so every value of one can be encoded; which values a request may have is R90 (Machine/Operands.lean). -/
def Instr.wf (c : Cfg) : Instr → Bool
  | .xfer cw _ => CmdClass.all.all fun k => !c.cmdMatches k cw
  | .dec _ | .tmdef | .tmsgl _ _ _ | .tmblk _ _ | .tmsend | .hpcap | .tackset _ _ | .schedset _ _ _ _ | .cntrst
  | .synchs _ _ _ _ => true
  | .hkReset _ | .hkPwr _ | .hkPres _ | .hkVolt _ _ | .hkCurr _ _ | .hkEnv _ | .hkBrd _ | .hkAdct _ | .hkCalt _
  | .hkPbst _ | .hkDqrst _ | .hkCkrst _ | .hkI2crst _ => true
  | .trNsset _ | .trNsrd _ | .trMask0 _ | .trMask1 _ | .trMask2 _ | .trMask3 _ | .trLttrd _ | .trHold _ | .trSwtrg _
  | .trHwen _ | .trHwdis _ | .trCntrst _ | .trHit0 _ | .trHit1 _ | .trHit2 _ | .trHit3 _ | .trArrcfg _ | .trTack _
  | .trSched _ | .trDiag _ => true

end Sys2Proof
end

