-- ==== Sys2Proof/Decode.lean ====
section
/-! DEFINITION. The command-word decoder and router DEC (R120 to R122), the reading of a request descriptor (R85, R86), and
the encoder. -/

namespace Sys2Proof

/-! ### Command-word fields (R73) -/

/-- `CAT`, bits 15:12 of a command word. -/
def catOf (cw : Word) : BitVec 4 := cw.extractLsb' 12 4

/-- `FN`, bits 11:8 of a command word. -/
def fnOf (cw : Word) : BitVec 4 := cw.extractLsb' 8 4

/-- `SUB`, bits 7:0 of a command word. -/
def subOf (cw : Word) : BitVec 8 := cw.extractLsb' 0 8

/-- `Route(cw) = cfg.ROUTE[cw[15:12]]` (R121). -/
def routeOf (c : Cfg) (cw : Word) : Option Controller := c.route[(catOf cw).toFin]

/-- `Classify(cw)` (R122): the class whose pattern matches, `none` for `UNKNOWN`. -/
def classify (c : Cfg) (cw : Word) : Option CmdClass := CmdClass.all.find? fun k => c.cmdMatches k cw

/-- The analog readback class of a command class, where it is one (R159). -/
def analogOf : CmdClass → Option AnalogClass
  | .hkVolt => some .volt
  | .hkCurr => some .curr
  | .hkEnv => some .env
  | .hkBrd => some .brd
  | .hkReset | .hkPwr | .hkPres | .hkAdct | .hkCalt | .hkPbst | .hkDqrst | .hkCkrst | .hkI2crst
  | .trNsset | .trNsrd | .trMask0 | .trMask1 | .trMask2 | .trMask3 | .trLttrd | .trHold | .trSwtrg | .trHwen | .trHwdis
  | .trCntrst | .trHit0 | .trHit1 | .trHit2 | .trHit3 | .trArrcfg | .trTack | .trSched | .trDiag => none

/-- Whether a class, `none` for `UNKNOWN`, is an analog readback (R159). -/
def isAnalog (k : Option CmdClass) : Bool := (k.bind analogOf).isSome

/-- Whether a class takes the low byte as a bank (R74). -/
def isBanked (k : Option CmdClass) : Bool := k.any fun k => k.format == .banked

/-- Whether a command word's bank exists (R74, R122): its class is banked and `SUB < cfg.NUM_ABANK`. -/
def bankValid (c : Cfg) (cw : Word) : Bool := isBanked (classify c cw) && decide ((subOf cw).toNat < c.numAbank)

/-- What `Decode(cw)` of R120 returns. -/
structure CwDecoded where
  cat : BitVec 4
  fn : BitVec 4
  sub : BitVec 8
  route : Option Controller
  cls : Option CmdClass
deriving DecidableEq, Repr

/-- `Decode(cw)` (R120), a pure function of the Word and `cfg`. -/
def decodeCw (c : Cfg) (cw : Word) : CwDecoded := ⟨catOf cw, fnOf cw, subOf cw, routeOf c cw, classify c cw⟩

/-- The command word of bank `b` of a banked class: `cfg.OP_<name> + b` (R88, R129, R130). -/
def bankedWord (c : Cfg) (k : CmdClass) (b : BitVec 8) : Word := c.op k + b.setWidth 16

/-! ### Request descriptors (R85, R86) -/

/-- Why a list of Words is no request descriptor. -/
inductive DecodeError where
  /-- Word 0 is reserved: code 0x0 or 0xC to 0xF, or a bit of 15:4 set (R86). -/
  | reservedCode
  /-- The code is one of 0x1 to 0xB and the number of operand Words is not the one R85 fixes for it. -/
  | badLength
  /-- There is no word 0. -/
  | empty
deriving DecidableEq, Repr

/-- The instruction of an `XFER` of a named command word. -/
def commandInstr (k : CmdClass) (bank : BitVec 8) (d : Payload) : Instr :=
  match k with
  | .hkReset => .hkReset d
  | .hkPwr => .hkPwr d
  | .hkPres => .hkPres d
  | .hkVolt => .hkVolt bank d
  | .hkCurr => .hkCurr bank d
  | .hkEnv => .hkEnv d
  | .hkBrd => .hkBrd d
  | .hkAdct => .hkAdct d
  | .hkCalt => .hkCalt d
  | .hkPbst => .hkPbst d
  | .hkDqrst => .hkDqrst d
  | .hkCkrst => .hkCkrst d
  | .hkI2crst => .hkI2crst d
  | .trNsset => .trNsset d
  | .trNsrd => .trNsrd d
  | .trMask0 => .trMask0 d
  | .trMask1 => .trMask1 d
  | .trMask2 => .trMask2 d
  | .trMask3 => .trMask3 d
  | .trLttrd => .trLttrd d
  | .trHold => .trHold d
  | .trSwtrg => .trSwtrg d
  | .trHwen => .trHwen d
  | .trHwdis => .trHwdis d
  | .trCntrst => .trCntrst d
  | .trHit0 => .trHit0 d
  | .trHit1 => .trHit1 d
  | .trHit2 => .trHit2 d
  | .trHit3 => .trHit3 d
  | .trArrcfg => .trArrcfg d
  | .trTack => .trTack d
  | .trSched => .trSched d
  | .trDiag => .trDiag d

/-- The reading of an `XFER` whose command word is `cw`: the named command, or `xfer` for class `UNKNOWN`. -/
def xferInstr (c : Cfg) (cw : Word) (d : Payload) : Instr :=
  match classify c cw with
  | some k => commandInstr k (subOf cw) d
  | none => .xfer cw d

/-- The operand Words of `XFER`. -/
def decodeXfer (c : Cfg) : List Word → Except DecodeError Instr
  | [cw, d1, d2, d3, d4, d5, d6, d7, d8] => .ok (xferInstr c cw ⟨d1, d2, d3, d4, d5, d6, d7, d8⟩)
  | _ => .error .badLength

/-- The operand Words of a request with none. -/
def decodeNone (i : Instr) : List Word → Except DecodeError Instr
  | [] => .ok i
  | _ => .error .badLength

/-- The operand Word of a request with one. -/
def decodeOne (f : Word → Instr) : List Word → Except DecodeError Instr
  | [a] => .ok (f a)
  | _ => .error .badLength

/-- The operand Words of a request with two. -/
def decodeTwo (f : Word → Word → Instr) : List Word → Except DecodeError Instr
  | [a, b] => .ok (f a b)
  | _ => .error .badLength

/-- The operand Words of a request with three. -/
def decodeThree (f : Word → Word → Word → Instr) : List Word → Except DecodeError Instr
  | [a, b, c] => .ok (f a b c)
  | _ => .error .badLength

/-- The operand Words of a request with four. -/
def decodeFour (f : Word → Word → Word → Word → Instr) : List Word → Except DecodeError Instr
  | [a, b, c, d] => .ok (f a b c d)
  | _ => .error .badLength

/-- The reading of a request descriptor (R85); word 0 is a code in bits 3:0 with bits 15:4 zero, and every other word 0 is
reserved (R86). -/
def decode (c : Cfg) : List Word → Except DecodeError Instr
  | [] => .error .empty
  | w0 :: ops =>
    match w0.toNat with
    | 0x1 => decodeXfer c ops
    | 0x2 => decodeOne .dec ops
    | 0x3 => decodeNone .tmdef ops
    | 0x4 => decodeThree .tmsgl ops
    | 0x5 => decodeTwo .tmblk ops
    | 0x6 => decodeNone .tmsend ops
    | 0x7 => decodeNone .hpcap ops
    | 0x8 => decodeTwo .tackset ops
    | 0x9 => decodeFour .schedset ops
    | 0xA => decodeNone .cntrst ops
    | 0xB => decodeFour .synchs ops
    | _ => .error .reservedCode

/-- The descriptor of an `XFER`. -/
def encodeXfer (cw : Word) (d : Payload) : List Word := 0x0001#16 :: cw :: d.toList

/-- The descriptor of an instruction (R85; a command word's is that of the `XFER` that sends it, R124). -/
def encode (c : Cfg) : Instr → List Word
  | .xfer cw d => encodeXfer cw d
  | .dec cw => [0x0002#16, cw]
  | .tmdef => [0x0003#16]
  | .tmsgl slot asic group => [0x0004#16, slot, asic, group]
  | .tmblk vlo vhi => [0x0005#16, vlo, vhi]
  | .tmsend => [0x0006#16]
  | .hpcap => [0x0007#16]
  | .tackset ty mo => [0x0008#16, ty, mo]
  | .schedset t3 t2 t1 t0 => [0x0009#16, t3, t2, t1, t0]
  | .cntrst => [0x000A#16]
  | .synchs t3 t2 t1 t0 => [0x000B#16, t3, t2, t1, t0]
  | .hkReset d => encodeXfer (c.op .hkReset) d
  | .hkPwr d => encodeXfer (c.op .hkPwr) d
  | .hkPres d => encodeXfer (c.op .hkPres) d
  | .hkVolt b d => encodeXfer (bankedWord c .hkVolt b) d
  | .hkCurr b d => encodeXfer (bankedWord c .hkCurr b) d
  | .hkEnv d => encodeXfer (c.op .hkEnv) d
  | .hkBrd d => encodeXfer (c.op .hkBrd) d
  | .hkAdct d => encodeXfer (c.op .hkAdct) d
  | .hkCalt d => encodeXfer (c.op .hkCalt) d
  | .hkPbst d => encodeXfer (c.op .hkPbst) d
  | .hkDqrst d => encodeXfer (c.op .hkDqrst) d
  | .hkCkrst d => encodeXfer (c.op .hkCkrst) d
  | .hkI2crst d => encodeXfer (c.op .hkI2crst) d
  | .trNsset d => encodeXfer (c.op .trNsset) d
  | .trNsrd d => encodeXfer (c.op .trNsrd) d
  | .trMask0 d => encodeXfer (c.op .trMask0) d
  | .trMask1 d => encodeXfer (c.op .trMask1) d
  | .trMask2 d => encodeXfer (c.op .trMask2) d
  | .trMask3 d => encodeXfer (c.op .trMask3) d
  | .trLttrd d => encodeXfer (c.op .trLttrd) d
  | .trHold d => encodeXfer (c.op .trHold) d
  | .trSwtrg d => encodeXfer (c.op .trSwtrg) d
  | .trHwen d => encodeXfer (c.op .trHwen) d
  | .trHwdis d => encodeXfer (c.op .trHwdis) d
  | .trCntrst d => encodeXfer (c.op .trCntrst) d
  | .trHit0 d => encodeXfer (c.op .trHit0) d
  | .trHit1 d => encodeXfer (c.op .trHit1) d
  | .trHit2 d => encodeXfer (c.op .trHit2) d
  | .trHit3 d => encodeXfer (c.op .trHit3) d
  | .trArrcfg d => encodeXfer (c.op .trArrcfg) d
  | .trTack d => encodeXfer (c.op .trTack) d
  | .trSched d => encodeXfer (c.op .trSched) d
  | .trDiag d => encodeXfer (c.op .trDiag) d

/-- The number of operand Words a request code takes (R85); 0 for a reserved code. -/
def operandCount (code : Nat) : Nat :=
  match code with
  | 0x1 => 9
  | 0x2 => 1
  | 0x4 => 3
  | 0x5 => 2
  | 0x8 => 2
  | 0x9 => 4
  | 0xB => 4
  | _ => 0

/-! ### The numbering of spec/opcode_table.json -/

/-- Word `k` of an instruction numbered as the table numbers its bits: word 0 is the least significant. -/
def tableWord (w k : Nat) : Word := BitVec.ofNat 16 (w >>> (16 * k))

/-- The `n` Words of a numbered instruction from word `k` on. -/
def tableWords (w : Nat) : Nat → Nat → List Word
  | _, 0 => []
  | k, n + 1 => tableWord w k :: tableWords w (k + 1) n

/-- The descriptor of a table row's words. A row of format `REQ` gives word 0 of its descriptor, whose bits 15:4 are zero
(R85), and its operand Words follow. A row of format `CW-A` or `CW-B` gives the command word, and its payload Words
follow; the instruction that sends it is the `XFER` of that command word (R124), so the request code comes before it.
Words that are no row's are read as a descriptor's word 0. -/
def tableDescriptor (nbits w : Nat) : List Word :=
  let v := w % 2 ^ nbits
  let w0 := tableWord v 0
  if (classify refCfg w0).isSome then 0x0001#16 :: tableWords v 0 9
  else tableWords v 0 (1 + operandCount w0.toNat)

/-- What the decoder reads from an instruction whose bits, numbered as spec/opcode_table.json numbers them, are `w`; the
table's command words are those of `REFCFG` (R81). -/
def decodeTableWord (nbits w : Nat) : Option Instr :=
  match decode refCfg (tableDescriptor nbits w) with
  | .ok i => some i
  | .error _ => none

end Sys2Proof
end

