-- ==== Sys2Proof/Machine/State.lean ====
section
/-! DEFINITION. The state of the machine as plain data, the reasons a step can stop, and the state after reset (R34). -/

namespace Sys2Proof.Machine

/-- `PH`, the sequencer's phase (R29). -/
inductive Phase where
  | idle
  | settle
  | xchg
deriving DecidableEq, Repr

/-- What answers the word exchanges (R33, R57, R65). Not state of the block: the block's reset does not touch it. -/
inductive Peer where
  /-- The oracle of R57: the answers it has still to give, in order; past them it answers the free value
  `Config.peerAnswer`. -/
  | oracle (script : List LinkAnswer)
  /-- The loopback peer of R65: it answers the Word sent on the exchange before, which is `last`. -/
  | loopback (last : Word)
deriving DecidableEq, Repr

/-- The state. `opr` to `xi` are the block's registers (10_state.md); `cfg` is the parameter of R7, carried here because
a step takes no other argument and changed by no step; `hist` is the model's history (R13); `reqs`, `rst`, `peer` and
`xcount` are the outside world: the ports `REQ` and `RST`, and the far side of `LINK` (R53). -/
structure State where
  /-- `cfg` (R7, R8). -/
  cfg : Cfg
  /-- `OPR`, the latched request code (R21). -/
  opr : BitVec 4
  /-- `ARG[0..8]`, the latched operand Words (R21). -/
  arg : Vector Word 9
  /-- `TX[0..10]`, the outbound message (R22). -/
  tx : Vector Word 11
  /-- `TGT`, the addressed controller, `none` for `NONE` (R23). -/
  tgt : Option Controller
  /-- `RESP[0..3][0..10]`, the response buffers (R24). -/
  resp : Vector (Vector Word 11) 4
  /-- `RESPV[0..3]` (R24). -/
  respv : Vector Bool 4
  /-- `MASK[0..31]`, the trigger mask (R25). -/
  mask : Vector Word 32
  /-- `HP[0..31]`, the hit pattern in canonical order (R26). -/
  hp : Vector Word 32
  /-- `HPV` (R26). -/
  hpv : Bool
  /-- `DECR0` (R27). -/
  decr0 : Word
  /-- `DECR1` (R27). -/
  decr1 : Word
  /-- `STAT` (R28). -/
  stat : Word
  /-- `PH` (R29). -/
  ph : Phase
  /-- `NMSG`, 1 to 4 (R29). -/
  nmsg : Fin 5
  /-- `MI` (R29). -/
  mi : Fin 4
  /-- `XI` (R29). -/
  xi : Fin 12
  /-- The history, oldest event first (R13). -/
  hist : List Event
  /-- The descriptors the requester presents on `REQ`, the next one first; each is held until it is accepted (R257). -/
  reqs : List (List Word)
  /-- `RST` at the coming steps, the next one first: asserted or not; past the list it is not asserted (R250, R256). -/
  rst : List Bool
  /-- The peer (R57). -/
  peer : Peer
  /-- How many exchanges there have been since power-on; the model's own, the free value's first argument. -/
  xcount : Nat
deriving DecidableEq, Repr

/-- Why the machine stops. -/
inductive Fault where
  /-- Raised by a step whose presented list of Words is no descriptor: a code of 0x1 to 0xB with another number of operand
  Words than R85 fixes, or no Word at all. No request has that form and the spec gives it no effect (log 6). Safe. -/
  | malformedDescriptor
  /-- Raised by a step of the sequencer in a state that no run reaches: a message index outside the request's message
  list, no addressed controller, or a settle phase with no duration (log 9). Safe. -/
  | sequencerCorrupt
  /-- Raised by a link request whose message has a command word that routes to no controller, which a well-formed `cfg`
  rules out (R8 item 3; log 9). Safe. -/
  | unroutableMessage
deriving DecidableEq, Repr

/-- Why an instruction has no meaning. -/
inductive Refusal where
  /-- Raised by `exec` for an instruction not modelled yet; no arm of this model raises it. Safe. -/
  | notModelled (mnemonic : String)
deriving DecidableEq, Repr

/-- The outcome of a step. -/
abbrev Result := Host.Outcome State Fault Refusal

/-- The state right after reset (R34): every register at its value there; `OPR`, `ARG`, `TX`, `RESP` and `HP`, for which
R34 gives none, at zero (log 3); `cfg` is `REFCFG` (log 1); nothing is presented on `REQ`, `RST` is not asserted, and the
peer is the oracle of R57. -/
def State.reset : State where
  cfg := refCfg
  opr := 0
  arg := Vector.replicate 9 0
  tx := Vector.replicate 11 0
  tgt := none
  resp := Vector.replicate 4 (Vector.replicate 11 0)
  respv := Vector.replicate 4 false
  mask := Vector.replicate 32 0xFFFF
  hp := Vector.replicate 32 0
  hpv := false
  decr0 := 0
  decr1 := 0
  stat := 0
  ph := .idle
  nmsg := 1
  mi := 0
  xi := 0
  hist := []
  reqs := []
  rst := []
  peer := .oracle []
  xcount := 0

end Sys2Proof.Machine
end

