-- ==== Sys2Proof/Machine/Flags.lean ====
section
/-! DEFINITION. The fields of `STAT` (R28) and of `DECR1` (R27), and every value the block gives them. -/

namespace Sys2Proof.Machine

/-! ### Bit fields -/

/-- The Word whose bits `lo` to `lo + len - 1` are set. -/
def fieldMask (lo len : Nat) : Word := BitVec.ofNat 16 ((2 ^ len - 1) <<< lo)

/-- `w` with the field of `len` bits from bit `lo` set to the low bits of `v`. -/
def setField (w : Word) (lo len : Nat) (v : Word) : Word :=
  (w &&& ~~~(fieldMask lo len)) ||| ((v <<< lo) &&& fieldMask lo len)

/-- A Bit as a Word. -/
def bitWord (b : Bool) : Word := if b then 1#16 else 0#16

/-! ### Reading `STAT` (R28) -/

/-- `STAT.BUSY`, bit 0. -/
def statBusy (w : Word) : Bool := w.getLsbD 0

/-- `STAT.DONE`, bit 1. -/
def statDone (w : Word) : Bool := w.getLsbD 1

/-- `STAT.ERR`, bits 4:2. -/
def statErr (w : Word) : BitVec 3 := w.extractLsb' 2 3

/-- `STAT.ECHO`, bit 5. -/
def statEcho (w : Word) : Bool := w.getLsbD 5

/-- `STAT.EMSG`, bits 7:6. -/
def statEmsg (w : Word) : BitVec 2 := w.extractLsb' 6 2

/-- `STAT.SBAD`, bit 8. -/
def statSbad (w : Word) : Bool := w.getLsbD 8

/-- `STAT.EBAD`, bit 9. -/
def statEbad (w : Word) : Bool := w.getLsbD 9

/-- Bits 11:10 of `STAT`, which always read 0. -/
def statZero (w : Word) : BitVec 2 := w.extractLsb' 10 2

/-- `STAT.EPOS`, bits 15:12. -/
def statEpos (w : Word) : BitVec 4 := w.extractLsb' 12 4

/-! ### Writing `STAT` -/

/-- `STAT.BUSY <- b`. -/
def setBusy (b : Bool) (w : Word) : Word := setField w 0 1 (bitWord b)

/-- `STAT.DONE <- b`. -/
def setDone (b : Bool) (w : Word) : Word := setField w 1 1 (bitWord b)

/-- `STAT.ERR <- code`. -/
def setErr (code : BitVec 3) (w : Word) : Word := setField w 2 3 (code.setWidth 16)

/-- `STAT.ECHO <- b`. -/
def setEcho (b : Bool) (w : Word) : Word := setField w 5 1 (bitWord b)

/-- `STAT.EMSG <- m`. -/
def setEmsg (m : Fin 4) (w : Word) : Word := setField w 6 2 (BitVec.ofNat 16 m.val)

/-- `STAT.SBAD <- b`. -/
def setSbad (b : Bool) (w : Word) : Word := setField w 8 1 (bitWord b)

/-- `STAT.EBAD <- b`. -/
def setEbad (b : Bool) (w : Word) : Word := setField w 9 1 (bitWord b)

/-- `STAT.EPOS <- k`. -/
def setEpos (k : Fin 12) (w : Word) : Word := setField w 12 4 (BitVec.ofNat 16 k.val)

/-- `STAT` after an acceptance (R100): cleared. -/
def statCleared : Word := 0x0000#16

/-- `STAT` while a link request runs (R100): `BUSY` alone. -/
def statRunning : Word := setBusy true statCleared

/-- `STAT.DONE <- 1` at the end of a request that never was busy (R100). -/
def statFinished : Word := setDone true statCleared

/-- The three errors of the block with what each records (R221 to R223). -/
inductive EngineError where
  /-- `LinkFailure`, raised by an exchange answered `Fail` (R221). -/
  | linkFailure
  /-- `FramingMismatch`, raised by the end-of-message check (R222). -/
  | framingMismatch (sbad ebad : Bool)
  /-- `InvalidParameter`, raised by the acceptance of a descriptor that is not valid (R223). -/
  | invalidParameter
deriving DecidableEq, Repr

/-- The error's code in `STAT.ERR` (R221 to R223). -/
def EngineError.code : EngineError → BitVec 3
  | .linkFailure => 1
  | .framingMismatch _ _ => 2
  | .invalidParameter => 3

/-- `STAT` after error entry (R226) at message `mi` and exchange `xi`, from the `STAT` before it; for `InvalidParameter`
the one of R100, `STAT <- 0x0000` and then `DONE` and `ERR`. -/
def errorStat (e : EngineError) (mi : Fin 4) (xi : Fin 12) (w : Word) : Word :=
  match e with
  | .linkFailure => setDone true (setBusy false (setEpos xi (setEmsg mi (setErr e.code w))))
  | .framingMismatch sbad ebad =>
    setDone true (setBusy false (setEbad ebad (setSbad sbad (setEmsg mi (setErr e.code w)))))
  | .invalidParameter => setErr e.code (setDone true statCleared)

/-- `STAT` at the end of a link request without error (R107). -/
def completeStat (w : Word) : Word := setDone true (setBusy false w)

/-! ### `DECR1` (R27, R123) -/

/-- `CLS`, bits 5:0. -/
def decrCls (w : Word) : BitVec 6 := w.extractLsb' 0 6

/-- `TGTD`, bits 7:6. -/
def decrTgtd (w : Word) : BitVec 2 := w.extractLsb' 6 2

/-- `BANKED`, bit 8. -/
def decrBanked (w : Word) : Bool := w.getLsbD 8

/-- `SUBV`, bit 9. -/
def decrSubv (w : Word) : Bool := w.getLsbD 9

/-- `ANALOG`, bit 10. -/
def decrAnalog (w : Word) : Bool := w.getLsbD 10

/-- Bits 15:11 of `DECR1`, which always read 0. -/
def decrZero (w : Word) : BitVec 5 := w.extractLsb' 11 5

/-- A class's number in `DECR1.CLS`; 0 is `UNKNOWN` (R80). -/
def classNumber (k : Option CmdClass) : Word :=
  match k with
  | none => 0#16
  | some k => BitVec.ofNat 16 k.id

/-- A controller's number in `DECR1.TGTD` and `TGT`: 0 `NONE`, 1 `HK`, 2 `TRG` (R23, R27). -/
def controllerNumber (t : Option Controller) : Word :=
  match t with
  | none => 0#16
  | some .hk => 1#16
  | some .trg => 2#16

/-- `DECR1` after `DEC cw` (R123). -/
def decodeResult (c : Cfg) (cw : Word) : Word :=
  classNumber (classify c cw) ||| (controllerNumber (routeOf c cw) <<< 6) ||| (bitWord (isBanked (classify c cw)) <<< 8) |||
    (bitWord (bankValid c cw) <<< 9) ||| (bitWord (isAnalog (classify c cw)) <<< 10)

end Sys2Proof.Machine
end

