-- ==== Sys2Proof/Machine/Operands.lean ====
section
/-! DEFINITION. Operand ranges (R90), payload formats (R75 to R77) and the message lists of the link requests (R101). -/

namespace Sys2Proof.Machine

/-! ### Operand ranges (R90, R223) -/

/-- `XFER`: the command word routes to a controller. -/
def xferValid (c : Cfg) (cw : Word) : Bool := (routeOf c cw).isSome

/-- `TMSGL`: `slot` 0 to 31, `asic` 0 to 3, `group` 0 to 3. -/
def tmsglValid (slot asic group : Word) : Bool :=
  decide (slot.toNat ≤ 31) && decide (asic.toNat ≤ 3) && decide (group.toNat ≤ 3)

/-- `TACKSET`: `type` and `mode` 0 to 3 each. -/
def tacksetValid (ty mo : Word) : Bool := decide (ty.toNat ≤ 3) && decide (mo.toNat ≤ 3)

/-! ### TimeValue and TackState (R76, R77) -/

/-- `TimeToWords(t)`: four Words, most significant first. -/
def timeToWords (t : BitVec 64) : List Word :=
  [t.extractLsb' 48 16, t.extractLsb' 32 16, t.extractLsb' 16 16, t.extractLsb' 0 16]

/-- `WordsToTime([w0, w1, w2, w3])`. -/
def wordsToTime (w0 w1 w2 w3 : Word) : BitVec 64 :=
  BitVec.ofNat 64 (w0.toNat * 2 ^ 48 + w1.toNat * 2 ^ 32 + w2.toNat * 2 ^ 16 + w3.toNat)

/-- The place of `(type, mode)` in the table `cfg.PACK_TACK`; both are 0 to 3 where it is used (R90). -/
def tackIndex (ty mo : Word) : Fin 16 := Fin.ofNat 16 (4 * ty.toNat + mo.toNat)

/-- `cfg.PACK_TACK(type, mode)` (R76). -/
def packTack (c : Cfg) (ty mo : Word) : Word := c.packTack[tackIndex ty mo]

/-! ### Payload formats (R75) -/

/-- `PL-FILL`. -/
def fillPayload (c : Cfg) : Payload :=
  ⟨c.fillWord, c.fillWord, c.fillWord, c.fillWord, c.fillWord, c.fillWord, c.fillWord, c.fillWord⟩

/-- The slot at place `j` of bank `b`: `8b + j` (R75, R177). -/
def bankSlot (b : Fin 4) (j : Fin 8) : Fin 32 := ⟨8 * b.val + j.val, by omega⟩

/-- `PL-MASK(b)`: the 8 mask Words of bank `b`, ascending. -/
def maskPayload (mask : Vector Word 32) (b : Fin 4) : Payload :=
  ⟨mask[bankSlot b 0], mask[bankSlot b 1], mask[bankSlot b 2], mask[bankSlot b 3],
   mask[bankSlot b 4], mask[bankSlot b 5], mask[bankSlot b 6], mask[bankSlot b 7]⟩

/-- `PL-TACK(type, mode)`. -/
def tackPayload (c : Cfg) (ty mo : Word) : Payload := { fillPayload c with d1 := packTack c ty mo }

/-- `PL-TIME(t)`, `t` given as its four Words, most significant first. -/
def timePayload (c : Cfg) (t3 t2 t1 t0 : Word) : Payload :=
  { fillPayload c with d1 := t3, d2 := t2, d3 := t1, d4 := t0 }

/-- `PL-RAW`: the 8 Words the requester gave with `XFER`, from the latch. -/
def rawPayload (arg : Vector Word 9) : Payload := ⟨arg[1], arg[2], arg[3], arg[4], arg[5], arg[6], arg[7], arg[8]⟩

/-! ### Message lists (R101) -/

/-- One message of a link request: the settle wait before it, its command word, its payload (R101). -/
structure Msg where
  pre : Option Nat
  cw : Word
  d : Payload
deriving DecidableEq, Repr

/-- The wait before a message sent by `XFER`: `cfg.T_ADC` when its command word is an analog readback (R101, R160). -/
def analogWait (c : Cfg) (cw : Word) : Option Nat := if isAnalog (classify c cw) then some c.tAdc else none

/-- `Msgs(XFER cw, d1..d8)` (R101). -/
def xferMsgs (c : Cfg) (cw : Word) (d : Payload) : List Msg := [⟨analogWait c cw, cw, d⟩]

/-- `Msgs(TMSEND)` (R177). -/
def tmsendMsgs (c : Cfg) (mask : Vector Word 32) : List Msg :=
  [⟨none, c.op .trMask0, maskPayload mask 0⟩, ⟨none, c.op .trMask1, maskPayload mask 1⟩,
   ⟨none, c.op .trMask2, maskPayload mask 2⟩, ⟨none, c.op .trMask3, maskPayload mask 3⟩]

/-- `Msgs(HPCAP)` (R186). -/
def hpcapMsgs (c : Cfg) : List Msg :=
  [⟨none, c.op .trHit0, fillPayload c⟩, ⟨none, c.op .trHit1, fillPayload c⟩,
   ⟨none, c.op .trHit2, fillPayload c⟩, ⟨none, c.op .trHit3, fillPayload c⟩]

/-- `Msgs(TACKSET type, mode)` (R201). -/
def tacksetMsgs (c : Cfg) (ty mo : Word) : List Msg := [⟨none, c.op .trTack, tackPayload c ty mo⟩]

/-- `Msgs(SCHEDSET t)` (R202). -/
def schedsetMsgs (c : Cfg) (t3 t2 t1 t0 : Word) : List Msg := [⟨none, c.op .trSched, timePayload c t3 t2 t1 t0⟩]

/-- `Msgs(CNTRST)` (R203). -/
def cntrstMsgs (c : Cfg) : List Msg := [⟨none, c.op .trCntrst, fillPayload c⟩]

/-- `Msgs(SYNCHS t)` (R204). -/
def synchsMsgs (c : Cfg) (t3 t2 t1 t0 : Word) : List Msg :=
  [⟨none, c.op .trTack, tackPayload c 1 0⟩, ⟨some c.tSync, c.op .trSched, timePayload c t3 t2 t1 t0⟩,
   ⟨some c.tSync, c.op .trCntrst, fillPayload c⟩, ⟨some c.tSync, c.op .trTack, tackPayload c 0 0⟩]

/-- `Msgs(q)` for the latched request, a function of `OPR`, `ARG`, `MASK` and `cfg` only (R101); a request that is not a
link request has no messages. -/
def msgsOf (c : Cfg) (opr : BitVec 4) (arg : Vector Word 9) (mask : Vector Word 32) : List Msg :=
  match opr.toNat with
  | 0x1 => xferMsgs c arg[0] (rawPayload arg)
  | 0x6 => tmsendMsgs c mask
  | 0x7 => hpcapMsgs c
  | 0x8 => tacksetMsgs c arg[0] arg[1]
  | 0x9 => schedsetMsgs c arg[0] arg[1] arg[2] arg[3]
  | 0xA => cntrstMsgs c
  | 0xB => synchsMsgs c arg[0] arg[1] arg[2] arg[3]
  | _ => []

/-- The message list of the request the machine holds. -/
def msgs (s : State) : List Msg := msgsOf s.cfg s.opr s.arg s.mask

end Sys2Proof.Machine
end

