-- ==== Sys2Proof/Machine/Ops.lean ====
section
/-! DEFINITION. The named operations on the registers: the sequencer's, error entry (R226) and the return from it (R228), the request latch
and acceptance (R100), the framer (R102), the word exchange (R50), the delay compensator (R104), and reset (R250). -/

namespace Sys2Proof.Machine

/-! ### The sequencer's registers -/

/-- `PH <- p` (R29). -/
def setPh (p : Phase) (s : State) : State := { s with ph := p }

/-- `MI <- m` (R29). -/
def setMi (m : Fin 4) (s : State) : State := { s with mi := m }

/-- `XI <- x` (R29). -/
def setXi (x : Fin 12) (s : State) : State := { s with xi := x }

/-! ### Errors -/

/-- Error entry, `raise E(info)` (R226): `STAT` records the class and the place, and the sequencer returns to `IDLE`. For
`InvalidParameter`, found while the engine is idle, only `STAT` changes (R100, R223). -/
def raiseError (e : EngineError) (s : State) : State :=
  match e with
  | .linkFailure | .framingMismatch _ _ =>
    { s with stat := errorStat e s.mi s.xi s.stat, ph := .idle, mi := 0, xi := 0 }
  | .invalidParameter => { s with stat := errorStat e s.mi s.xi s.stat }

/-- Return from an error (R228): there is no return instruction; the acceptance of the next request clears `STAT`. -/
def clearError (s : State) : State := { s with stat := statCleared }

/-! ### The request latch and the framer -/

/-- `ARG[0..] <- operands`: the operand Words in order, the rest of `ARG` as it was (R100, R21). -/
def latchArgs (arg : Vector Word 9) (ops : List Word) : Vector Word 9 :=
  Vector.ofFn fun i => ops[i.val]?.getD arg[i]

/-- `OPR <- code ; ARG[0..] <- operands` (R100). -/
def latch (code : BitVec 4) (ops : List Word) (s : State) : State := { s with opr := code, arg := latchArgs s.arg ops }

/-- The 11-word message (R70, R102): the start marker, the command word, the payload, the end marker. -/
def messageWords (c : Cfg) (t : Controller) (cw : Word) (d : Payload) : Vector Word 11 :=
  #v[c.som t, cw, d.d1, d.d2, d.d3, d.d4, d.d5, d.d6, d.d7, d.d8, c.eom t]

/-- The register writes of `StartMessage` (R102) for a message to controller `t`. -/
def frameMessage (t : Controller) (m : Msg) (s : State) : State :=
  { s with tgt := some t, tx := messageWords s.cfg t m.cw m.d, xi := 0, ph := if m.pre.isSome then .settle else .xchg }

/-- `StartMessage(m)` (R102). -/
def startMessage (m : Nat) (s : State) : Result :=
  match (msgs s)[m]? with
  | none => .fault .sequencerCorrupt
  | some msg =>
    match routeOf s.cfg msg.cw with
    | none => .fault .unroutableMessage
    | some t => .next (frameMessage t msg s)

/-! ### Acceptance (R100) -/

/-- Whether a request code is the one of `HPCAP`. -/
def isHpcap (code : BitVec 4) : Bool := code == 0x7#4

/-- `NMSG <- length(Msgs(q))`; no list is longer than 4 (R101). -/
def messageCount (s : State) : Fin 5 := ⟨min (msgs s).length 4, by omega⟩

/-- The register writes of the acceptance of a link request up to `StartMessage(0)` (R100). -/
def beginLink (code : BitVec 4) (ops : List Word) (s : State) : State :=
  let q := latch code ops (clearError s)
  { q with respv := Vector.replicate 4 false, hpv := if isHpcap code then false else s.hpv, nmsg := messageCount q, mi := 0,
           stat := statRunning }

/-- A request presented to the engine: accepted only when `PH = IDLE`; otherwise it is held and has no effect (R257). One
that is not valid is refused with `InvalidParameter` (R100). -/
def accept (valid : Bool) (run : State → Result) (s : State) : Result :=
  match s.ph with
  | .idle => if valid then run s else .next (raiseError .invalidParameter s)
  | .settle | .xchg => .next s

/-- The acceptance of a pure request (R100): it is latched, has its register effect, and is done. -/
def acceptPure (valid : Bool) (code : BitVec 4) (ops : List Word) (effect : State → State) (s : State) : Result :=
  accept valid (fun s => .next { effect (latch code ops (clearError s)) with stat := statFinished }) s

/-- The acceptance of a link request (R100): it is latched, marked running, and its first message is started. -/
def acceptLink (valid : Bool) (code : BitVec 4) (ops : List Word) (s : State) : Result :=
  accept valid (fun s => startMessage 0 (beginLink code ops s)) s

/-- The acceptance of `XFER cw, d1..d8` (R109), also the way every command word is sent (R124). -/
def acceptXfer (cw : Word) (d : Payload) (s : State) : Result :=
  acceptLink (xferValid s.cfg cw) 0x1#4 (cw :: d.toList) s

/-! ### The word exchange (R50, R57, R65) -/

/-- The answer to `LinkXchg(w)` in this state. -/
def peerReply (s : State) (w : Word) : LinkAnswer :=
  match s.peer with
  | .oracle (a :: _) => a
  | .oracle [] => Config.peerAnswer s.xcount s.hist w
  | .loopback last => .ok last

/-- The peer after it has answered `LinkXchg(w)`. -/
def peerAfter (p : Peer) (w : Word) : Peer :=
  match p with
  | .oracle script => .oracle script.tail
  | .loopback _ => .loopback w

/-- The event of `LinkXchg(w)` answered `a` (R50). -/
def exchangeEvent (w : Word) (a : LinkAnswer) : Event :=
  match a with
  | .ok r => .xchg w r
  | .fail => .xchgFail w

/-- Everything outside the block's registers that `LinkXchg(w)` answered `a` changes: the history, and the peer. -/
def recordExchange (w : Word) (a : LinkAnswer) (s : State) : State :=
  { s with hist := s.hist ++ [exchangeEvent w a], peer := peerAfter s.peer w, xcount := s.xcount + 1 }

/-- `Settle(T)` (R62): the event, and nothing else. -/
def recordSettle (t : Nat) (s : State) : State := { s with hist := s.hist ++ [.settle t] }

/-! ### Response registers -/

/-- `RESP[m][p] <- r`. -/
def writeResp (m : Fin 4) (p : Fin 11) (r : Word) (s : State) : State :=
  { s with resp := s.resp.set m.val (s.resp[m].set p.val r p.isLt) m.isLt }

/-- `RESPV[m] <- 1` (R105). -/
def markValid (m : Fin 4) (s : State) : State := { s with respv := s.respv.set m.val true m.isLt }

/-- The delay compensator (R104): the word received on exchange `XI >= 1` is stored at response position `XI - 1`; the
one received on exchange 0 is dropped. -/
def compensate (r : Word) (s : State) : State :=
  if 1 ≤ s.xi.val then writeResp s.mi ⟨s.xi.val - 1, by omega⟩ r s else s

/-! ### Reset -/

/-- Reset (R250): every register at its value of R34 and the history emptied. `cfg` and everything outside the block (the
peer, the descriptors presented, the number of exchanges) stay (R34, R251). -/
def resetBlock (s : State) : State :=
  { State.reset with cfg := s.cfg, reqs := s.reqs, rst := s.rst, peer := s.peer, xcount := s.xcount }

end Sys2Proof.Machine
end

