-- ==== Sys2Proof/Machine/HitPattern.lean ====
section
/-! DEFINITION. The hit-pattern decoder HPD: reordering (R187), lane extraction (R189), the inverses (R191), and `HPCAP`
(R186). -/

namespace Sys2Proof.Machine

/-- The quadrant `i div 8` of a place `i` of a 32-word sequence. -/
def quadrantOf (i : Fin 32) : Fin 4 := ⟨i.val / 8, by omega⟩

/-- The response position `2 + i mod 8` of a place `i` of a 32-word sequence. -/
def dataPosOf (i : Fin 32) : Fin 11 := ⟨2 + i.val % 8, by omega⟩

/-- The data words of the four responses in order: place `8m + j` holds `RESP[m][2 + j]` (R31, R185). -/
def respData (resp : Vector (Vector Word 11) 4) : Vector Word 32 := Vector.ofFn fun i => resp[quadrantOf i][dataPosOf i]

/-- The place `31 - i`. -/
def mirror (i : Fin 32) : Fin 32 := ⟨31 - i.val, by omega⟩

/-- `Reorder(raw)[31 - i] = raw[i]` (R187). -/
def reorder (raw : Vector Word 32) : Vector Word 32 := Vector.ofFn fun p => raw[mirror p]

/-- `Unreorder(hp)[i] = hp[31 - i]` (R191). -/
def unreorder (hp : Vector Word 32) : Vector Word 32 := Vector.ofFn fun i => hp[mirror i]

/-- The lane array of R31: `HIT[p][l][n]`. -/
abbrev HitArray := Vector (Vector (Vector Bool 4) 4) 32

/-- The four lanes of one Word: lane `l` is the bits `l`, `l + 4`, `l + 8`, `l + 12` (R83, R189). -/
def wordLanes (w : Word) : Vector (Vector Bool 4) 4 :=
  Vector.ofFn fun l => Vector.ofFn fun n => w.getLsbD (4 * n.val + l.val)

/-- `Lanes(hp)[p][l][n] = hp[p][4n + l]` (R189). -/
def lanes (hp : Vector Word 32) : HitArray := Vector.ofFn fun p => wordLanes hp[p]

/-- A lane as the 4-bit number with nibble 0 least significant (R189). -/
def laneNumber (lane : Vector Bool 4) : Nat :=
  lane[0].toNat + 2 * lane[1].toNat + 4 * lane[2].toNat + 8 * lane[3].toNat

/-- The bit of a word that has nibble `n` and lane `l`, as a Word. -/
def laneBit (b : Bool) (l n : Fin 4) : Word := bitWord b <<< (4 * n.val + l.val)

/-- One lane's four bits as a Word. -/
def laneWord (lane : Vector Bool 4) (l : Fin 4) : Word :=
  laneBit lane[0] l 0 ||| laneBit lane[1] l 1 ||| laneBit lane[2] l 2 ||| laneBit lane[3] l 3

/-- `Unlanes` of one word: bit `4n + l` is `[l][n]` (R191). -/
def unlaneWord (h : Vector (Vector Bool 4) 4) : Word :=
  laneWord h[0] 0 ||| laneWord h[1] 1 ||| laneWord h[2] 2 ||| laneWord h[3] 3

/-- `Unlanes(hit)[p][4n + l] = hit[p][l][n]` (R191). -/
def unlanes (hit : HitArray) : Vector Word 32 := Vector.ofFn fun p => unlaneWord hit[p]

/-- `DecodeHP(raw) = Lanes(Reorder(raw))` (R191). -/
def decodeHp (raw : Vector Word 32) : HitArray := lanes (reorder raw)

/-- `Encode(hit) = Unreorder(Unlanes(hit))` (R191). -/
def encodeHp (hit : HitArray) : Vector Word 32 := unreorder (unlanes hit)

/-- The completion effect of `HPCAP` (R186): `HP <- Reorder(raw)` with `raw` the data words of the four captures (R185), and
`HPV <- 1`. -/
def storeCapture (s : State) : State := { s with hp := reorder (respData s.resp), hpv := true }

/-- The completion effect of the latched request (R107): `HPCAP` has one, no other request does. -/
def completionEffect (s : State) : State := if isHpcap s.opr then storeCapture s else s

/-- `HPCAP` (R186): its acceptance; the four captures are the engine's steps. -/
def execHpcap (s : State) : Result := acceptLink true 0x7#4 [] s

end Sys2Proof.Machine
end

