-- ==== Sys2Proof/Machine/Housekeeping.lean ====
section
/-! DEFINITION. The 13 housekeeping-controller command words (R126 to R138). Each is sent by `XFER` with the 8
payload Words the requester gives (R124); what the peer then does is the peer's (R57). -/

namespace Sys2Proof.Machine

/-- `HK_RESET`, reset (R126). -/
def execHkReset (d : Payload) (s : State) : Result := acceptXfer (s.cfg.op .hkReset) d s

/-- `HK_PWR`, power control (R127). -/
def execHkPwr (d : Payload) (s : State) : Result := acceptXfer (s.cfg.op .hkPwr) d s

/-- `HK_PRES`, presence query (R128). -/
def execHkPres (d : Payload) (s : State) : Result := acceptXfer (s.cfg.op .hkPres) d s

/-- `HK_VOLT(b)`, voltage readback banks (R129). -/
def execHkVolt (bank : BitVec 8) (d : Payload) (s : State) : Result := acceptXfer (bankedWord s.cfg .hkVolt bank) d s

/-- `HK_CURR(b)`, current readback banks (R130). -/
def execHkCurr (bank : BitVec 8) (d : Payload) (s : State) : Result := acceptXfer (bankedWord s.cfg .hkCurr bank) d s

/-- `HK_ENV`, environmental readback (R131). -/
def execHkEnv (d : Payload) (s : State) : Result := acceptXfer (s.cfg.op .hkEnv) d s

/-- `HK_BRD`, housekeeping-board readback (R132). -/
def execHkBrd (d : Payload) (s : State) : Result := acceptXfer (s.cfg.op .hkBrd) d s

/-- `HK_ADCT`, ADC trigger (R133). -/
def execHkAdct (d : Payload) (s : State) : Result := acceptXfer (s.cfg.op .hkAdct) d s

/-- `HK_CALT`, calibration trigger (R134). -/
def execHkCalt (d : Payload) (s : State) : Result := acceptXfer (s.cfg.op .hkCalt) d s

/-- `HK_PBST`, power-board status (R135). -/
def execHkPbst (d : Payload) (s : State) : Result := acceptXfer (s.cfg.op .hkPbst) d s

/-- `HK_DQRST`, DACQ power reset (R136). -/
def execHkDqrst (d : Payload) (s : State) : Result := acceptXfer (s.cfg.op .hkDqrst) d s

/-- `HK_CKRST`, clock-distributor reset (R137). -/
def execHkCkrst (d : Payload) (s : State) : Result := acceptXfer (s.cfg.op .hkCkrst) d s

/-- `HK_I2CRST`, I2C bus reset (R138). -/
def execHkI2crst (d : Payload) (s : State) : Result := acceptXfer (s.cfg.op .hkI2crst) d s

end Sys2Proof.Machine
end

