-- ==== Sys2Proof/Machine/TimeSync.lean ====
section
/-! DEFINITION. The time-sync handshake sequencer TSH: `TACKSET` (R201), `SCHEDSET` (R202), `CNTRST` (R203), `SYNCHS` (R204). -/

namespace Sys2Proof.Machine

/-- `TACKSET type, mode` (R201). -/
def execTackset (ty mo : Word) (s : State) : Result := acceptLink (tacksetValid ty mo) 0x8#4 [ty, mo] s

/-- `SCHEDSET t` (R202), `t` as its four Words, most significant first. -/
def execSchedset (t3 t2 t1 t0 : Word) (s : State) : Result := acceptLink true 0x9#4 [t3, t2, t1, t0] s

/-- `CNTRST` (R203). -/
def execCntrst (s : State) : Result := acceptLink true 0xA#4 [] s

/-- `SYNCHS t` (R204): its acceptance; the four messages and three waits are the engine's steps. -/
def execSynchs (t3 t2 t1 t0 : Word) (s : State) : Result := acceptLink true 0xB#4 [t3, t2, t1, t0] s

end Sys2Proof.Machine
end

