-- ==== Sys2Proof/Machine/Transfer.lean ====
section
/-! DEFINITION. `XFER` (R109) and `DEC` (R123). -/

namespace Sys2Proof.Machine

/-- `XFER cw, d1..d8` (R109). -/
def execXfer (cw : Word) (d : Payload) (s : State) : Result := acceptXfer cw d s

/-- The register effect of `DEC cw` (R123). -/
def decEffect (cw : Word) (s : State) : State := { s with decr0 := cw, decr1 := decodeResult s.cfg cw }

/-- `DEC cw` (R123). -/
def execDec (cw : Word) (s : State) : Result := acceptPure true 0x2#4 [cw] (decEffect cw) s

end Sys2Proof.Machine
end

