-- ==== Sys2Proof/Machine/Trigger.lean ====
section
/-! DEFINITION. The 20 trigger-controller command words (R139 to R158). Each is sent by `XFER` with the 8
payload Words the requester gives (R124); what the peer then does is the peer's (R57). -/

namespace Sys2Proof.Machine

/-- `TR_NSSET`, nanosecond-timer set (R139). -/
def execTrNsset (d : Payload) (s : State) : Result := acceptXfer (s.cfg.op .trNsset) d s

/-- `TR_NSRD`, nanosecond-timer read (R140). -/
def execTrNsrd (d : Payload) (s : State) : Result := acceptXfer (s.cfg.op .trNsrd) d s

/-- `TR_MASK0`, trigger-mask bank 0 (R141). -/
def execTrMask0 (d : Payload) (s : State) : Result := acceptXfer (s.cfg.op .trMask0) d s

/-- `TR_MASK1`, trigger-mask bank 1 (R142). -/
def execTrMask1 (d : Payload) (s : State) : Result := acceptXfer (s.cfg.op .trMask1) d s

/-- `TR_MASK2`, trigger-mask bank 2 (R143). -/
def execTrMask2 (d : Payload) (s : State) : Result := acceptXfer (s.cfg.op .trMask2) d s

/-- `TR_MASK3`, trigger-mask bank 3 (R144). -/
def execTrMask3 (d : Payload) (s : State) : Result := acceptXfer (s.cfg.op .trMask3) d s

/-- `TR_LTTRD`, last-trigger-time read (R145). -/
def execTrLttrd (d : Payload) (s : State) : Result := acceptXfer (s.cfg.op .trLttrd) d s

/-- `TR_HOLD`, hold-off set (R146). -/
def execTrHold (d : Payload) (s : State) : Result := acceptXfer (s.cfg.op .trHold) d s

/-- `TR_SWTRG`, software trigger (R147). -/
def execTrSwtrg (d : Payload) (s : State) : Result := acceptXfer (s.cfg.op .trSwtrg) d s

/-- `TR_HWEN`, hardware trigger enable (R148). -/
def execTrHwen (d : Payload) (s : State) : Result := acceptXfer (s.cfg.op .trHwen) d s

/-- `TR_HWDIS`, hardware trigger disable (R149). -/
def execTrHwdis (d : Payload) (s : State) : Result := acceptXfer (s.cfg.op .trHwdis) d s

/-- `TR_CNTRST`, trigger-counter/timer reset (R150). -/
def execTrCntrst (d : Payload) (s : State) : Result := acceptXfer (s.cfg.op .trCntrst) d s

/-- `TR_HIT0`, hit-pattern bank 0 (R151). -/
def execTrHit0 (d : Payload) (s : State) : Result := acceptXfer (s.cfg.op .trHit0) d s

/-- `TR_HIT1`, hit-pattern bank 1 (R152). -/
def execTrHit1 (d : Payload) (s : State) : Result := acceptXfer (s.cfg.op .trHit1) d s

/-- `TR_HIT2`, hit-pattern bank 2 (R153). -/
def execTrHit2 (d : Payload) (s : State) : Result := acceptXfer (s.cfg.op .trHit2) d s

/-- `TR_HIT3`, hit-pattern bank 3 (R154). -/
def execTrHit3 (d : Payload) (s : State) : Result := acceptXfer (s.cfg.op .trHit3) d s

/-- `TR_ARRCFG`, array/SerDes configuration (R155). -/
def execTrArrcfg (d : Payload) (s : State) : Result := acceptXfer (s.cfg.op .trArrcfg) d s

/-- `TR_TACK`, TACK type/mode set (R156). -/
def execTrTack (d : Payload) (s : State) : Result := acceptXfer (s.cfg.op .trTack) d s

/-- `TR_SCHED`, scheduled-trigger-time set (R157). -/
def execTrSched (d : Payload) (s : State) : Result := acceptXfer (s.cfg.op .trSched) d s

/-- `TR_DIAG`, diagnostic-word read (R158). -/
def execTrDiag (d : Payload) (s : State) : Result := acceptXfer (s.cfg.op .trDiag) d s

end Sys2Proof.Machine
end

