-- ==== Sys2Proof/Machine/TriggerMask.lean ====
section
/-! DEFINITION. The trigger-mask generator TMG: `TMDEF` (R170), `TMSGL` (R171, R172), `TMBLK` (R174, R175), `TMSEND` (R177). -/

namespace Sys2Proof.Machine

/-- The default mask: all channels enabled (R170). -/
def defaultMask : Vector Word 32 := Vector.replicate 32 0xFFFF

/-- The ASIC-field index `f` and the bit offset `b` of the folding rule (R171). -/
def foldField (a g : Nat) : Nat × Nat :=
  if a % 2 = 0 then
    if g ≤ 1 then (a, g) else (a + 1, g - 2)
  else
    if 2 ≤ g then (a, g) else (a - 1, g + 2)

/-- `MaskBit(a, g) = 4 f + b` (R171). -/
def maskBit (a g : Nat) : Nat := 4 * (foldField a g).1 + (foldField a g).2

/-- `0xFFFF AND NOT (1 << MaskBit(asic, group))` (R172). -/
def singleWord (a g : Nat) : Word := 0xFFFF#16 &&& ~~~(1#16 <<< maskBit a g)

/-- The mask of `TMSGL slot, asic, group`: the default with one bit cleared (R172). -/
def singleMask (slot asic group : Word) : Vector Word 32 :=
  Vector.ofFn fun s => if s.val = slot.toNat then singleWord asic.toNat group.toNat else 0xFFFF#16

/-- The 32-bit vector `v = vhi ++ vlo` (R175). -/
def bulkVector (vlo vhi : Word) : BitVec 32 := vhi ++ vlo

/-- `BulkMask(v)` (R174): a 1 disables the module. -/
def bulkMask (v : BitVec 32) : Vector Word 32 := Vector.ofFn fun k => if v.getLsbD k.val then 0x0000#16 else 0xFFFF#16

/-- `TMDEF` (R170). -/
def execTmdef (s : State) : Result := acceptPure true 0x3#4 [] (fun s => { s with mask := defaultMask }) s

/-- `TMSGL slot, asic, group` (R172). -/
def execTmsgl (slot asic group : Word) (s : State) : Result :=
  acceptPure (tmsglValid slot asic group) 0x4#4 [slot, asic, group] (fun s => { s with mask := singleMask slot asic group }) s

/-- `TMBLK vlo, vhi` (R175). -/
def execTmblk (vlo vhi : Word) (s : State) : Result :=
  acceptPure true 0x5#4 [vlo, vhi] (fun s => { s with mask := bulkMask (bulkVector vlo vhi) }) s

/-- `TMSEND` (R177): its acceptance; the four messages are the engine's steps. -/
def execTmsend (s : State) : Result := acceptLink true 0x6#4 [] s

end Sys2Proof.Machine
end

