-- ==== Sys2Proof/Machine/Dispatch.lean ====
section
/-! DEFINITION. The meaning of every instruction: one call for each constructor. -/

namespace Sys2Proof.Machine

def exec (i : Instr) (s : State) : Host.Outcome State Fault Refusal :=
  match i with
  | .xfer cw d => Sys2Proof.Machine.execXfer cw d s
  | .dec cw => Sys2Proof.Machine.execDec cw s
  | .tmdef => Sys2Proof.Machine.execTmdef s
  | .tmsgl slot asic group => Sys2Proof.Machine.execTmsgl slot asic group s
  | .tmblk vlo vhi => Sys2Proof.Machine.execTmblk vlo vhi s
  | .tmsend => Sys2Proof.Machine.execTmsend s
  | .hpcap => Sys2Proof.Machine.execHpcap s
  | .tackset ty mo => Sys2Proof.Machine.execTackset ty mo s
  | .schedset t3 t2 t1 t0 => Sys2Proof.Machine.execSchedset t3 t2 t1 t0 s
  | .cntrst => Sys2Proof.Machine.execCntrst s
  | .synchs t3 t2 t1 t0 => Sys2Proof.Machine.execSynchs t3 t2 t1 t0 s
  | .hkReset d => Sys2Proof.Machine.execHkReset d s
  | .hkPwr d => Sys2Proof.Machine.execHkPwr d s
  | .hkPres d => Sys2Proof.Machine.execHkPres d s
  | .hkVolt bank d => Sys2Proof.Machine.execHkVolt bank d s
  | .hkCurr bank d => Sys2Proof.Machine.execHkCurr bank d s
  | .hkEnv d => Sys2Proof.Machine.execHkEnv d s
  | .hkBrd d => Sys2Proof.Machine.execHkBrd d s
  | .hkAdct d => Sys2Proof.Machine.execHkAdct d s
  | .hkCalt d => Sys2Proof.Machine.execHkCalt d s
  | .hkPbst d => Sys2Proof.Machine.execHkPbst d s
  | .hkDqrst d => Sys2Proof.Machine.execHkDqrst d s
  | .hkCkrst d => Sys2Proof.Machine.execHkCkrst d s
  | .hkI2crst d => Sys2Proof.Machine.execHkI2crst d s
  | .trNsset d => Sys2Proof.Machine.execTrNsset d s
  | .trNsrd d => Sys2Proof.Machine.execTrNsrd d s
  | .trMask0 d => Sys2Proof.Machine.execTrMask0 d s
  | .trMask1 d => Sys2Proof.Machine.execTrMask1 d s
  | .trMask2 d => Sys2Proof.Machine.execTrMask2 d s
  | .trMask3 d => Sys2Proof.Machine.execTrMask3 d s
  | .trLttrd d => Sys2Proof.Machine.execTrLttrd d s
  | .trHold d => Sys2Proof.Machine.execTrHold d s
  | .trSwtrg d => Sys2Proof.Machine.execTrSwtrg d s
  | .trHwen d => Sys2Proof.Machine.execTrHwen d s
  | .trHwdis d => Sys2Proof.Machine.execTrHwdis d s
  | .trCntrst d => Sys2Proof.Machine.execTrCntrst d s
  | .trHit0 d => Sys2Proof.Machine.execTrHit0 d s
  | .trHit1 d => Sys2Proof.Machine.execTrHit1 d s
  | .trHit2 d => Sys2Proof.Machine.execTrHit2 d s
  | .trHit3 d => Sys2Proof.Machine.execTrHit3 d s
  | .trArrcfg d => Sys2Proof.Machine.execTrArrcfg d s
  | .trTack d => Sys2Proof.Machine.execTrTack d s
  | .trSched d => Sys2Proof.Machine.execTrSched d s
  | .trDiag d => Sys2Proof.Machine.execTrDiag d s

end Sys2Proof.Machine
end

