-- ==== Sys2Proof/Machine/Engine.lean ====
section
/-! DEFINITION. The engine's settle step (R108) and exchange step (R103 to R107). -/

namespace Sys2Proof.Machine

/-- The settle step (R108), with the duration of the current message's triple. -/
def settleStep (s : State) : Result :=
  match ((msgs s)[s.mi.val]?).bind Msg.pre with
  | none => .fault .sequencerCorrupt
  | some t => .next (setPh .xchg (recordSettle t s))

/-- The word sent (R103): `TX[XI]` for `XI <= 10`, then `cfg.NULL_WORD`. -/
def outWord (s : State) : Word := if h : s.xi.val < 11 then s.tx[s.xi.val] else s.cfg.nullWord

/-- The end of a request without error (R107). -/
def finishRequest (s : State) : State :=
  { completionEffect s with mi := 0, xi := 0, ph := .idle, stat := completeStat s.stat }

/-- `NextMessage` (R107). -/
def nextMessage (s : State) : Result :=
  if h : s.mi.val + 1 < s.nmsg.val then startMessage (s.mi.val + 1) (setMi ⟨s.mi.val + 1, by omega⟩ s)
  else .next (finishRequest s)

/-- The command-echo check (R106, R225): response position 1 against the command word sent. -/
def echoCheck (s : State) : State :=
  if s.resp[s.mi][1] != s.tx[1] then { s with stat := setEcho true s.stat } else s

/-- `sbad` of R106: response position 0 is not the expected start marker. -/
def startBad (t : Controller) (s : State) : Bool := s.resp[s.mi][0] != s.cfg.som t

/-- `ebad` of R106: response position 10 is not the expected end marker. -/
def endBad (t : Controller) (s : State) : Bool := s.resp[s.mi][10] != s.cfg.eom t

/-- The end-of-message check (R106). -/
def endOfMessage (s : State) : Result :=
  match s.tgt with
  | none => .fault .sequencerCorrupt
  | some t =>
    if startBad t s || endBad t s then .next (raiseError (.framingMismatch (startBad t s) (endBad t s)) (echoCheck s))
    else nextMessage (echoCheck s)

/-- What follows a stored or dropped word (R105). -/
def advance (s : State) : Result :=
  if h : s.xi.val < 11 then .next (setXi ⟨s.xi.val + 1, by omega⟩ s) else endOfMessage (markValid s.mi s)

/-- The exchange step on an exchange that sent `w` and was answered `a` (R104, R221). -/
def afterAnswer (w : Word) (a : LinkAnswer) (s : State) : Result :=
  match a with
  | .fail => .next (raiseError .linkFailure (recordExchange w a s))
  | .ok r => advance (compensate r (recordExchange w a s))

/-- The exchange step (R103 to R107). -/
def exchangeStep (s : State) : Result := afterAnswer (outWord s) (peerReply s (outWord s)) s

end Sys2Proof.Machine
end

