-- ==== Sys2Proof/Machine/Fetch.lean ====
section
/-! DEFINITION. The three kinds of step of the engine (R100, R103, R108), the request presented on `REQ`, and the `RST` port. -/

namespace Sys2Proof.Machine

/-- The next descriptor taken from the port `REQ`. -/
def takeRequest (s : State) : State := { s with reqs := s.reqs.tail }

/-- The accept step (R100) on a presented descriptor: the instruction it encodes, or `InvalidParameter` for a reserved word
0 (R86, R223). -/
def acceptDescriptor (q : List Word) (s : State) : Result :=
  match decode s.cfg q with
  | .ok i => exec i (takeRequest s)
  | .error .reservedCode => .next (raiseError .invalidParameter (takeRequest s))
  | .error .badLength | .error .empty => .fault .malformedDescriptor

/-- The engine in `IDLE`: it accepts the request presented, and waits where none is (R239). -/
def idleStep (s : State) : Result :=
  match s.reqs with
  | [] => .next s
  | q :: _ => acceptDescriptor q s

/-- One step of the engine: in each phase one kind of step is enabled. -/
def engineStep (s : State) : Result :=
  match s.ph with
  | .idle => idleStep s
  | .settle => settleStep s
  | .xchg => exchangeStep s

/-- Whether `RST` is asserted at this step. -/
def resetAsserted (s : State) : Bool := s.rst.headD false

/-- The port `RST` moved on by one step. -/
def tickReset (s : State) : State := { s with rst := s.rst.tail }

/-- One step of the machine: reset where `RST` is asserted, whatever the engine was doing (R250), else a step of the
engine. -/
def machineStep (s : State) : Result :=
  if resetAsserted s then .next (resetBlock (tickReset s)) else engineStep (tickReset s)

/-- The state with a descriptor as the next one presented on `REQ`, in a machine that is ready to accept it at its very next
step: idle, and `RST` not asserted. -/
def presentDescriptor (q : List Word) (s : State) : State := { s with reqs := q :: s.reqs, ph := .idle, rst := [] }

end Sys2Proof.Machine
end

