-- ==== Sys2Proof/Machine/Step.lean ====
section
/-! DEFINITION. One step of the machine, and the instruction placed where it fetches its next one. -/

namespace Sys2Proof.Machine

/-- One step (R100 to R108, R250). -/
def step (s : State) : Host.Outcome State Fault Refusal := machineStep s

/-- `s` with the instruction whose bits, numbered as spec/opcode_table.json numbers them, are `w`, presented on `REQ` (log 5). -/
def State.withFetchWord (s : State) (nbits w : Nat) : State := presentDescriptor (tableDescriptor nbits w) s

end Sys2Proof.Machine
end

