-- ==== Sys2Proof/Machine/Results.lean ====
section
/-! DEFINITION. The port `RES` (R53): what the requester may read and when (R35, R256), the views `RDBK` and `HIT` (R31), and the
response data formats (R78) with their decoding rules (R159, R161). None of it changes the state.

A read never stops. Where the spec gives the register's contents a meaning, the read yields them; elsewhere it yields any
value (U8), which is the read's last argument: a FREE VALUE, which a claim has to allow whatever it is (log 13). -/

namespace Sys2Proof.Machine

/-! ### What a read yields -/

/-- A read that has its value `v` only where `valid` holds and the engine is not running, and elsewhere any value `any` (R35, R53,
U8; log 13). -/
def readWhere {α : Type} (valid : Bool) (s : State) (v any : α) : α := if valid && !statBusy s.stat then v else any

/-- `STAT`, readable at any time (R256). -/
def readStat (s : State) : Word := s.stat

/-- Whether a word of `RESP` has a value a claim may rely on once the engine is idle (R24, R35, R227): its buffer is valid, or the
last request ended with `LinkFailure` in that message and the word had been received before the failing exchange. No rule says how
long such received words keep their meaning: DESIGN CHOICE (log 21), until the next acceptance of any request, which clears the
fields of `STAT` that tell of them (R30, R228). -/
def respReadable (s : State) (m : Fin 4) (p : Fin 11) : Bool :=
  s.respv[m] || (statErr s.stat == 1#3 && (statEmsg s.stat).toNat == m.val && decide (p.val + 2 ≤ (statEpos s.stat).toNat))

/-- `RESP[m][p]` (R24, R35). -/
def readResp (s : State) (m : Fin 4) (p : Fin 11) (any : Word) : Word := readWhere (respReadable s m p) s s.resp[m][p] any

/-- `RESPV[m]` (R24). -/
def readRespv (s : State) (m : Fin 4) (any : Bool) : Bool := readWhere true s s.respv[m] any

/-- `MASK[k]` (R25). -/
def readMask (s : State) (k : Fin 32) (any : Word) : Word := readWhere true s s.mask[k] any

/-- `HP[p]` (R26, R35). -/
def readHp (s : State) (p : Fin 32) (any : Word) : Word := readWhere s.hpv s s.hp[p] any

/-- `HPV` (R26). -/
def readHpv (s : State) (any : Bool) : Bool := readWhere true s s.hpv any

/-- `DECR0` (R27). -/
def readDecr0 (s : State) (any : Word) : Word := readWhere true s s.decr0 any

/-- `DECR1` (R27). -/
def readDecr1 (s : State) (any : Word) : Word := readWhere true s s.decr1 any

/-! ### Views (R31) -/

/-- `RDBK[8b + j] = RESP[b][2 + j]` (R31, R178). -/
def rdbk (s : State) : Vector Word 32 := respData s.resp

/-- `HIT = Lanes(HP)` (R31). -/
def hit (s : State) : HitArray := lanes s.hp

/-- `RDBK[k]` on `RES` (R31, R35). -/
def readRdbk (s : State) (k : Fin 32) (any : Word) : Word := readResp s (quadrantOf k) (dataPosOf k) any

/-- `HIT[p][l][n]` on `RES` (R31, R35). -/
def readHit (s : State) (p : Fin 32) (l n : Fin 4) (any : Bool) : Bool := readWhere s.hpv s (hit s)[p][l][n] any

/-! ### Response data formats (R78) -/

/-- Which of the three scales `cfg.SCALE_OF(cls, sub, j)` is (R7). -/
def railOf (c : Cfg) (k : AnalogClass) (sub : BitVec 8) (j : Fin 8) : Rail :=
  match c.scaleRows.find? fun r => r.cls == k && r.sub == sub && r.j == j with
  | some r => r.rail
  | none =>
    match k with
    | .volt => c.railVolt
    | .curr => c.railCurr
    | .env => c.railEnv
    | .brd => c.railBrd

/-- The scale of a kind of rail (R7). -/
def scaleOfRail (c : Cfg) : Rail → Scale
  | .v12 => c.scale12V
  | .lowVoltage => c.scaleLv
  | .environment => c.scaleEnv

/-- `cfg.SCALE_OF(cls, sub, j)` as an exact rational (R7). -/
def scaleOf (c : Cfg) (k : AnalogClass) (sub : BitVec 8) (j : Fin 8) : Rat :=
  (scaleOfRail c (railOf c k sub j)).num / (scaleOfRail c (railOf c k sub j)).den

/-- `AnalogDecode(cls, sub, j, raw)` (R159): the exact product, with no rounding. -/
def analogDecode (c : Cfg) (k : AnalogClass) (sub : BitVec 8) (j : Fin 8) (raw : Word) : Rat :=
  raw.toNat * scaleOf c k sub j

/-- `Present(s)` (R161) in a response to `HK_PRES`: a set bit means present. -/
def present (c : Cfg) (resp : Vector Word 11) (slot : Fin 32) : Bool := resp[c.pres[slot].pos].getLsbD c.pres[slot].bit.val

/-- Response position `2 + j`, the place of response data word `j` (R24, R78). -/
def dataPos (j : Fin 8) : Fin 11 := ⟨2 + j.val, by omega⟩

/-- The 8 response data words of message `m`, unchanged: `RESP[m][2..9]` (R78). -/
def dataWords (s : State) (m : Fin 4) : Vector Word 8 := Vector.ofFn fun j => s.resp[m][dataPos j]

/-- Value `j` of `RS-ANALOG`: `RESP[0][2 + j] * cfg.SCALE_OF(cls, sub, j)` (R78, R159). -/
def analogValue (s : State) (k : AnalogClass) (sub : BitVec 8) (j : Fin 8) : Rat :=
  analogDecode s.cfg k sub j s.resp[(0 : Fin 4)][dataPos j]

/-- Slot `slot` of `RS-PRES`: bit `cfg.PRES[slot].bit` of `RESP[0][cfg.PRES[slot].pos]` (R78, R161). -/
def slotPresent (s : State) (slot : Fin 32) : Bool := present s.cfg s.resp[(0 : Fin 4)] slot

/-- `RS-ANALOG` on `RES`: the scale applied to what a read of `RESP[0][2 + j]` yields (R35, R159). -/
def readAnalog (s : State) (k : AnalogClass) (sub : BitVec 8) (j : Fin 8) (any : Word) : Rat :=
  analogDecode s.cfg k sub j (readResp s 0 (dataPos j) any)

/-- `RS-PRES` on `RES`: the slot's bit of what a read of its word of `RESP[0]` yields (R35, R161). -/
def readPresent (s : State) (slot : Fin 32) (any : Word) : Bool :=
  (readResp s 0 s.cfg.pres[slot].pos any).getLsbD s.cfg.pres[slot].bit.val

/-- What the 8 response data words of a message mean, one constructor for each format of R78. -/
inductive Reading where
  /-- `RS-RAW`: no meaning given, the words unchanged. -/
  | raw (words : Vector Word 8)
  /-- `RS-MASKRB`: the peer's readback of one mask bank, its 8 slots ascending. -/
  | maskBank (words : Vector Word 8)
  /-- `RS-HIT`: one quadrant of the hit pattern, in capture order. -/
  | hitQuadrant (words : Vector Word 8)
  /-- `RS-ANALOG`: 8 scaled values. -/
  | analog (values : Vector Rat 8)
  /-- `RS-PRES`: one presence bit for each slot. -/
  | presence (slots : Vector Bool 32)
deriving DecidableEq, Repr

/-- `sub` of R159: the bank of a banked class, 0 for a plain one. -/
def analogBank (c : Cfg) (cw : Word) : BitVec 8 := if isBanked (classify c cw) then subOf cw else 0

/-- `RS-ANALOG` for class `k` and bank `sub`, all 8 values. -/
def analogReading (s : State) (k : AnalogClass) (sub : BitVec 8) : Reading := .analog (Vector.ofFn (analogValue s k sub))

/-- What `RESP[m][2..9]` mean when message `m` sent the command word `cw`: the format of its class in the table of R78. A message
with an analog readback or `HK_PRES` is an `XFER`'s, so its response is `RESP[0]`. -/
def reading (s : State) (m : Fin 4) (cw : Word) : Reading :=
  match classify s.cfg cw with
  | some .hkVolt => analogReading s .volt (analogBank s.cfg cw)
  | some .hkCurr => analogReading s .curr (analogBank s.cfg cw)
  | some .hkEnv => analogReading s .env (analogBank s.cfg cw)
  | some .hkBrd => analogReading s .brd (analogBank s.cfg cw)
  | some .hkPres => .presence (Vector.ofFn (slotPresent s))
  | some .trMask0 | some .trMask1 | some .trMask2 | some .trMask3 => .maskBank (dataWords s m)
  | some .trHit0 | some .trHit1 | some .trHit2 | some .trHit3 => .hitQuadrant (dataWords s m)
  | none | some .hkReset | some .hkPwr | some .hkAdct | some .hkCalt | some .hkPbst | some .hkDqrst | some .hkCkrst
  | some .hkI2crst | some .trNsset | some .trNsrd | some .trLttrd | some .trHold | some .trSwtrg | some .trHwen
  | some .trHwdis | some .trCntrst | some .trArrcfg | some .trTack | some .trSched | some .trDiag => .raw (dataWords s m)

/-! ### The string form of the bulk mask (R89) -/

/-- The Word whose bit `k` is set when character `k` is `'1'` (R89, R174); any other character leaves it clear. -/
def bulkHalf : List Char → Word
  | [] => 0#16
  | ch :: rest => (bulkHalf rest <<< 1) ||| bitWord (ch == '1')

/-- The pseudo-request `TMBLK "c0c1...c31"` (R89): the operand Words, or none for a string that is not 32 characters long. -/
def assembleBulk (chars : List Char) : Option (Word × Word) :=
  if chars.length = 32 then some (bulkHalf (chars.take 16), bulkHalf (chars.drop 16)) else none

/-- The pseudo-request `XFER cw` (R89): `XFER` with the filler in all 8 payload positions. -/
def xferFiller (c : Cfg) (cw : Word) : List Word := encodeXfer cw (fillPayload c)

/-- The pseudo-requests `SCHEDSET t` and `SYNCHS t` (R89): the four operand Words. -/
def timeOperands (t : BitVec 64) : List Word := timeToWords t

end Sys2Proof.Machine
end

