-- ==== Sys2Proof/Safety.lean ====
section
/-! DEFINITION. The invariant of the machine, and the terms the claims use: a quiet `RST`, a well-behaved peer (R57), the events
of one message, and the state in which a request has just been accepted. -/

namespace Sys2Proof.Machine

/-- `RST` is asserted at no coming step. -/
def RstQuiet (s : State) : Prop := ∀ b ∈ s.rst, b = false

/-- The current message is framed (R102): it is in the request's message list, `TGT` is the controller it routes to, and `TX`
holds its 11 words. -/
def Framed (s : State) : Prop :=
  ∃ msg t, (msgs s)[s.mi.val]? = some msg ∧ routeOf s.cfg msg.cw = some t ∧ s.tgt = some t ∧
    s.tx = messageWords s.cfg t msg.cw msg.d

/-- What `STAT` may hold while the engine is idle (R28). -/
structure IdleStat (w : Word) : Prop where
  notBusy : statBusy w = false
  zero : statZero w = 0#2
  errLegal : (statErr w).toNat ≤ 3
  errDone : statErr w ≠ 0#3 → statDone w = true
  echoDone : statEcho w = true → statDone w = true
  emsgLegal : statEmsg w ≠ 0#2 → statErr w = 1#3 ∨ statErr w = 2#3
  badLegal : (statSbad w = true ∨ statEbad w = true) ↔ statErr w = 2#3
  eposLegal : statEpos w ≠ 0#4 → statErr w = 1#3
  eposRange : (statEpos w).toNat ≤ 11

/-- What holds of the sequencer while a request runs (R24, R28, R29, R101, R102). -/
structure Running (s : State) : Prop where
  /-- `BUSY` alone, or `BUSY` and `ECHO`. -/
  stat : s.stat = 0x0001#16 ∨ s.stat = 0x0021#16
  count : (msgs s).length = s.nmsg.val
  current : s.mi.val < s.nmsg.val
  framed : Framed s
  routable : ∀ msg ∈ msgs s, (routeOf s.cfg msg.cw).isSome = true
  valid : ∀ m : Fin 4, s.respv[m] = decide (m.val < s.mi.val)
  settle : s.ph = .settle → s.xi = 0 ∧ (((msgs s)[s.mi.val]?).bind Msg.pre).isSome = true

/-- The invariant: what is true after reset and kept by every step. -/
structure Inv (s : State) : Prop where
  cfgWf : s.cfg.wf = true
  nmsgPos : 1 ≤ s.nmsg.val
  decrZero : decrZero s.decr1 = 0#5
  decrCls : (decrCls s.decr1).toNat ≤ 33
  decrTgtd : (decrTgtd s.decr1).toNat ≤ 2
  idle : s.ph = .idle → IdleStat s.stat ∧ s.mi = 0 ∧ s.xi = 0
  running : s.ph ≠ .idle → Running s

/-! ### A peer's answers -/

/-- The twelve answers of a well-behaved peer (R57): any Word `x`, the start marker, the echo of the command word, any eight
data Words, the end marker. -/
def goodAnswers (c : Cfg) (t : Controller) (cw x : Word) (r : Payload) : List LinkAnswer :=
  (x :: c.som t :: cw :: (r.toList ++ [c.eom t])).map LinkAnswer.ok

/-- The twelve words sent for one message (R71). -/
def wireWords (c : Cfg) (t : Controller) (cw : Word) (d : Payload) : List Word :=
  c.som t :: cw :: (d.toList ++ [c.eom t, c.nullWord])

/-- The twelve events of one message to a well-behaved peer (R71). -/
def goodEvents (c : Cfg) (t : Controller) (cw : Word) (d : Payload) (x : Word) (r : Payload) : List Event :=
  List.zipWith Event.xchg (wireWords c t cw d) (x :: c.som t :: cw :: (r.toList ++ [c.eom t]))

/-- The response a well-behaved peer leaves in a buffer (R111). -/
def goodResponse (c : Cfg) (t : Controller) (cw : Word) (r : Payload) : Vector Word 11 :=
  #v[c.som t, cw, r.d1, r.d2, r.d3, r.d4, r.d5, r.d6, r.d7, r.d8, c.eom t]

/-! ### Acceptance -/

/-- The state right after the acceptance of a link request with code `code`, latched operands `arg` and `n` messages, whose
first message goes to `t` with command word `cw` and payload `d`, after a settle wait or not (R100, R102). -/
def linkStarted (s : State) (code : BitVec 4) (arg : Vector Word 9) (n : Fin 5) (t : Controller) (cw : Word) (d : Payload)
    (wait : Bool) : State :=
  { s with
    opr := code, arg := arg, nmsg := n, mi := 0, xi := 0, stat := 0x0001#16
    respv := #v[false, false, false, false], tgt := some t
    tx := #v[s.cfg.som t, cw, d.d1, d.d2, d.d3, d.d4, d.d5, d.d6, d.d7, d.d8, s.cfg.eom t]
    ph := if wait then .settle else .xchg }

/-- The state right after the acceptance of `XFER cw, d1..d8` to controller `t` (R100, R109). -/
def xferStarted (s : State) (t : Controller) (cw : Word) (d : Payload) (wait : Bool) : State :=
  linkStarted s 0x1#4 #v[cw, d.d1, d.d2, d.d3, d.d4, d.d5, d.d6, d.d7, d.d8] 1 t cw d wait

/-- The instruction sends its command word `cw` to controller `t`: presented to an idle engine with a well-formed `cfg` it
starts the one-message transfer of `cw` with its payload, after a settle wait or not. -/
def Sends (i : Payload → Instr) (cw : Cfg → Word) (t : Controller) (wait : Bool) : Prop :=
  ∀ (d : Payload) (s : State), s.cfg.wf = true → s.ph = .idle → exec (i d) s = .next (xferStarted s t (cw s.cfg) d wait)

end Sys2Proof.Machine
end

