-- ==== Sys2Proof/Certificates/Slice0/Obligations.lean ====
section
/-! DEFINITION. The statements for the provers, from the numbered rules of spec/. Every one of them is for every
configuration `s.cfg`, with R8 (`s.cfg.wf`, or the invariant, which holds it) as a premise where the rule needs it. -/

open Sys2Proof Sys2Proof.Machine

/-! ### Encoding -/

/-- Every descriptor field survives: decoding the descriptor of a well-formed instruction gives it back (R85, R73, R74). -/
def Obligations.DecodeOfEncode : Prop :=
  ∀ (c : Cfg) (i : Instr), c.wf = true → i.wf c = true → decode c (encode c i) = .ok i

/-- A descriptor has one meaning: what decodes to an instruction is that instruction's descriptor (R85). -/
def Obligations.EncodeOfDecode : Prop :=
  ∀ (c : Cfg) (ws : List Word) (i : Instr), c.wf = true → decode c ws = .ok i → encode c i = ws ∧ i.wf c = true

/-- The descriptors of V60, and `XFER`s of command words of R81 and V20, read as the instructions they stand for. -/
def Obligations.SampledDescriptorsDecode : Prop :=
  decode refCfg [0x0001, 0xB004, 1, 2, 3, 4, 5, 6, 7, 8] = .ok (.xfer 0xB004 ⟨1, 2, 3, 4, 5, 6, 7, 8⟩) ∧
  decode refCfg [0x0002, 0x3102] = .ok (.dec 0x3102) ∧
  decode refCfg [0x0004, 0x0005, 0x0001, 0x0000] = .ok (.tmsgl 5 1 0) ∧
  decode refCfg [0x0005, 0x0008, 0x0000] = .ok (.tmblk 8 0) ∧
  decode refCfg [0x0007] = .ok .hpcap ∧
  decode refCfg [0x000B, 0x0000, 0x0000, 0x0000, 0x0004] = .ok (.synchs 0 0 0 4) ∧
  decode refCfg [0x0001, 0x3002, 1, 2, 3, 4, 5, 6, 7, 8] = .ok (.hkVolt 2 ⟨1, 2, 3, 4, 5, 6, 7, 8⟩) ∧
  decode refCfg [0x0001, 0x9400, 4, 0, 0, 0, 0, 0, 0, 0] = .ok (.trTack ⟨4, 0, 0, 0, 0, 0, 0, 0⟩)

/-- R86: a reserved word 0 is refused with `InvalidParameter` (`STAT <- 0x000E`, R226) and has no other effect. -/
def Obligations.ReservedDescriptorRefused : Prop :=
  ∀ (s : State) (w0 : Word) (ops : List Word) (rest : List (List Word)),
    s.ph = .idle → resetAsserted s = false → s.reqs = (w0 :: ops) :: rest →
    (w0.extractLsb' 4 12 ≠ 0#12 ∨ w0.extractLsb' 0 4 = 0#4 ∨ 12 ≤ (w0.extractLsb' 0 4).toNat) →
    step s = .next { s with reqs := rest, rst := s.rst.tail, stat := 0x000E }

/-- R122: a class is the one whose pattern the Word matches, at most one does, and the bank rule of the banked classes. -/
def Obligations.ClassifyIsThePattern : Prop :=
  ∀ (c : Cfg) (cw : Word), c.wf = true →
    (∀ k : CmdClass, classify c cw = some k ↔
      (match k.format with
        | .plain => cw = c.op k
        | .banked => cw &&& 0xFF00#16 = c.op k)) ∧
    (bankValid c cw = true ↔
      ∃ k, classify c cw = some k ∧ k.format = .banked ∧ (cw.extractLsb' 0 8).toNat < c.numAbank)

/-- R120: the three fields of a command word, which are all its bits, with its controller and its class. -/
def Obligations.DecodeSplitsTheCommandWord : Prop :=
  ∀ (c : Cfg) (cw : Word),
    (decodeCw c cw).cat = cw.extractLsb' 12 4 ∧ (decodeCw c cw).fn = cw.extractLsb' 8 4 ∧
    (decodeCw c cw).sub = cw.extractLsb' 0 8 ∧ (decodeCw c cw).route = routeOf c cw ∧
    (decodeCw c cw).cls = classify c cw ∧
    cw.toNat = (decodeCw c cw).cat.toNat * 4096 + (decodeCw c cw).fn.toNat * 256 + (decodeCw c cw).sub.toNat

/-! ### Pure requests -/

/-- R123: `DEC cw` decodes a command word, writes `DECR0` and `DECR1` and nothing else but the latch and `STAT`. -/
def Obligations.DecRecordsTheClass : Prop :=
  (∀ (c : Cfg) (cw : Word), decode c [0x0002, cw] = .ok (.dec cw)) ∧
  (∀ (cw : Word) (s : State), s.ph = .idle →
    ∃ w, exec (.dec cw) s =
        .next { s with opr := 0x2, arg := s.arg.set 0 cw, decr0 := cw, decr1 := w, stat := 0x0002 } ∧
      (decrCls w).toNat = (match classify s.cfg cw with | none => 0 | some k => k.id) ∧
      (decrTgtd w).toNat = (match routeOf s.cfg cw with | none => 0 | some .hk => 1 | some .trg => 2) ∧
      decrBanked w = isBanked (classify s.cfg cw) ∧
      decrSubv w = (isBanked (classify s.cfg cw) && decide ((cw.extractLsb' 0 8).toNat < s.cfg.numAbank)) ∧
      (decrAnalog w = true ↔ classify s.cfg cw ∈
        [some CmdClass.hkVolt, some CmdClass.hkCurr, some CmdClass.hkEnv, some CmdClass.hkBrd]) ∧
      decrZero w = 0#5) ∧
  decodeResult refCfg 0x3102 = 0x0745 ∧ decodeResult refCfg 0x3109 = 0x0545 ∧ decodeResult refCfg 0xA002 = 0x0092 ∧
    decodeResult refCfg 0x7000 = 0x0000

/-- R170: `TMDEF` sets every mask word to 0xFFFF and changes nothing else but the latch and `STAT`. -/
def Obligations.TmdefSetsTheDefault : Prop :=
  (∀ c : Cfg, decode c [0x0003] = .ok .tmdef) ∧
  (∀ s : State, s.ph = .idle →
    exec .tmdef s = .next { s with opr := 0x3, mask := Vector.replicate 32 0xFFFF#16, stat := 0x0002 }) ∧
  State.reset.mask = Vector.replicate 32 0xFFFF#16

/-- R172 with the folding rule of R171 written out: `TMSGL` in range rebuilds the mask from the default with one bit of one
word cleared, and changes nothing else but the latch and `STAT`. -/
def Obligations.TmsglBuildsSingleTarget : Prop :=
  ∀ (slot asic group : Word) (s : State), s.ph = .idle → slot.toNat ≤ 31 → asic.toNat ≤ 3 → group.toNat ≤ 3 →
    ∃ m : Vector Word 32,
      exec (.tmsgl slot asic group) s =
        .next { s with opr := 0x4, arg := ((s.arg.set 0 slot).set 1 asic).set 2 group, mask := m, stat := 0x0002 } ∧
      ∀ k : Fin 32, m[k] =
        if k.val = slot.toNat then
          0xFFFF#16 &&& ~~~(1#16 <<<
            (if asic.toNat % 2 = 0 then
              (if group.toNat ≤ 1 then 4 * asic.toNat + group.toNat else 4 * (asic.toNat + 1) + (group.toNat - 2))
            else
              (if 2 ≤ group.toNat then 4 * asic.toNat + group.toNat else 4 * (asic.toNat - 1) + (group.toNat + 2))))
        else 0xFFFF#16

/-- R173: after a `TMSGL` in range exactly one of the 512 mask bits is 0, the one of the folding rule (R171). -/
def Obligations.TmsglClearsExactlyOneBit : Prop :=
  ∀ (slot asic group : Word) (s : State), s.ph = .idle → slot.toNat ≤ 31 → asic.toNat ≤ 3 → group.toNat ≤ 3 →
    ∃ t, exec (.tmsgl slot asic group) s = .next t ∧
      ∀ (k : Fin 32) (b : Fin 16), t.mask[k].getLsbD b.val = false ↔
        k.val = slot.toNat ∧ b.val =
          (if asic.toNat % 2 = 0 then
            (if group.toNat ≤ 1 then 4 * asic.toNat + group.toNat else 4 * (asic.toNat + 1) + (group.toNat - 2))
          else
            (if 2 ≤ group.toNat then 4 * asic.toNat + group.toNat else 4 * (asic.toNat - 1) + (group.toNat + 2)))

/-- R175: `TMBLK vlo, vhi` disables the modules whose bit is 1 and enables the others, and changes nothing else but the latch
and `STAT`. -/
def Obligations.TmblkDisablesMarkedSlots : Prop :=
  (∀ (c : Cfg) (vlo vhi : Word), decode c [0x0005, vlo, vhi] = .ok (.tmblk vlo vhi)) ∧
  (∀ (vlo vhi : Word) (s : State), s.ph = .idle →
    ∃ m : Vector Word 32,
      exec (.tmblk vlo vhi) s =
        .next { s with opr := 0x5, arg := (s.arg.set 0 vlo).set 1 vhi, mask := m, stat := 0x0002 } ∧
      ∀ k : Fin 32, m[k] =
        if (if k.val < 16 then vlo.getLsbD k.val else vhi.getLsbD (k.val - 16)) then 0x0000#16 else 0xFFFF#16)

/-- R174, R176 with the string form of R89: character `k` of a 32-character string disables slot `k` when it is `'1'` and
enables it otherwise; a string of another length makes no request. -/
def Obligations.BulkStringDisablesMarkedSlots : Prop :=
  (∀ chars : List Char, chars.length ≠ 32 → assembleBulk chars = none) ∧
  (∀ chars : List Char, (h : chars.length = 32) →
    ∃ vlo vhi, assembleBulk chars = some (vlo, vhi) ∧
      ∀ (s : State), s.ph = .idle →
        ∃ t, exec (.tmblk vlo vhi) s = .next t ∧
          ∀ k : Fin 32, t.mask[k] = if chars[k.val]'(by omega) = '1' then 0x0000#16 else 0xFFFF#16)

/-! ### Acceptance of link requests -/

/-- R109, R125: an `XFER` whose command word routes to a controller starts that controller's message, whatever the class of
the command word; the class decides only the settle wait (R160). -/
def Obligations.XferStartsTheMessage : Prop :=
  ∀ (cw : Word) (d : Payload) (s : State) (t : Controller), s.ph = .idle → routeOf s.cfg cw = some t →
    exec (.xfer cw d) s = .next (xferStarted s t cw d
      (decide (classify s.cfg cw ∈
        [some CmdClass.hkVolt, some CmdClass.hkCurr, some CmdClass.hkEnv, some CmdClass.hkBrd])))

/-- R126 to R128, R133 to R138: the nine housekeeping commands that are no analog readback are sent to the housekeeping
controller with no wait. -/
def Obligations.HousekeepingCommandsSend : Prop :=
  Sends .hkReset (·.op .hkReset) .hk false ∧ Sends .hkPwr (·.op .hkPwr) .hk false ∧
  Sends .hkPres (·.op .hkPres) .hk false ∧ Sends .hkAdct (·.op .hkAdct) .hk false ∧
  Sends .hkCalt (·.op .hkCalt) .hk false ∧ Sends .hkPbst (·.op .hkPbst) .hk false ∧
  Sends .hkDqrst (·.op .hkDqrst) .hk false ∧ Sends .hkCkrst (·.op .hkCkrst) .hk false ∧
  Sends .hkI2crst (·.op .hkI2crst) .hk false

/-- R129 to R132, R160: the four analog readbacks are sent to the housekeeping controller after a settle wait, the banked two
with every bank, valid or not. -/
def Obligations.AnalogReadbacksWaitAndSend : Prop :=
  (∀ b : BitVec 8, Sends (.hkVolt b) (fun c => c.op .hkVolt + b.setWidth 16) .hk true) ∧
  (∀ b : BitVec 8, Sends (.hkCurr b) (fun c => c.op .hkCurr + b.setWidth 16) .hk true) ∧
  Sends .hkEnv (·.op .hkEnv) .hk true ∧ Sends .hkBrd (·.op .hkBrd) .hk true

/-- R139 to R158: the twenty trigger commands are sent to the trigger controller with no wait. -/
def Obligations.TriggerCommandsSend : Prop :=
  Sends .trNsset (·.op .trNsset) .trg false ∧ Sends .trNsrd (·.op .trNsrd) .trg false ∧
  Sends .trMask0 (·.op .trMask0) .trg false ∧ Sends .trMask1 (·.op .trMask1) .trg false ∧
  Sends .trMask2 (·.op .trMask2) .trg false ∧ Sends .trMask3 (·.op .trMask3) .trg false ∧
  Sends .trLttrd (·.op .trLttrd) .trg false ∧ Sends .trHold (·.op .trHold) .trg false ∧
  Sends .trSwtrg (·.op .trSwtrg) .trg false ∧ Sends .trHwen (·.op .trHwen) .trg false ∧
  Sends .trHwdis (·.op .trHwdis) .trg false ∧ Sends .trCntrst (·.op .trCntrst) .trg false ∧
  Sends .trHit0 (·.op .trHit0) .trg false ∧ Sends .trHit1 (·.op .trHit1) .trg false ∧
  Sends .trHit2 (·.op .trHit2) .trg false ∧ Sends .trHit3 (·.op .trHit3) .trg false ∧
  Sends .trArrcfg (·.op .trArrcfg) .trg false ∧ Sends .trTack (·.op .trTack) .trg false ∧
  Sends .trSched (·.op .trSched) .trg false ∧ Sends .trDiag (·.op .trDiag) .trg false

/-- R177: `TMSEND` starts the first of its four messages, bank 0 of the mask. -/
def Obligations.TmsendStartsBankZero : Prop :=
  ∀ s : State, s.cfg.wf = true → s.ph = .idle →
    exec .tmsend s = .next (linkStarted s 0x6 s.arg 4 .trg (s.cfg.op .trMask0)
      ⟨s.mask[0], s.mask[1], s.mask[2], s.mask[3], s.mask[4], s.mask[5], s.mask[6], s.mask[7]⟩ false)

/-- R186: `HPCAP` clears `HPV` and starts the first of its four captures. -/
def Obligations.HpcapStartsCaptureZero : Prop :=
  ∀ s : State, s.cfg.wf = true → s.ph = .idle →
    exec .hpcap s = .next { linkStarted s 0x7 s.arg 4 .trg (s.cfg.op .trHit0)
      ⟨s.cfg.fillWord, s.cfg.fillWord, s.cfg.fillWord, s.cfg.fillWord,
       s.cfg.fillWord, s.cfg.fillWord, s.cfg.fillWord, s.cfg.fillWord⟩ false with hpv := false }

/-- R201: `TACKSET type, mode` in range starts its message with the packed TackState in `D1`. -/
def Obligations.TacksetStartsTheMessage : Prop :=
  ∀ (ty mo : Word) (s : State), s.cfg.wf = true → s.ph = .idle → (hty : ty.toNat ≤ 3) → (hmo : mo.toNat ≤ 3) →
    exec (.tackset ty mo) s = .next (linkStarted s 0x8 ((s.arg.set 0 ty).set 1 mo) 1 .trg (s.cfg.op .trTack)
      ⟨s.cfg.packTack[4 * ty.toNat + mo.toNat]'(by omega), s.cfg.fillWord, s.cfg.fillWord, s.cfg.fillWord,
       s.cfg.fillWord, s.cfg.fillWord, s.cfg.fillWord, s.cfg.fillWord⟩ false)

/-- R202: `SCHEDSET t` starts its message with the four time words in `D1..D4`, as given. -/
def Obligations.SchedsetStartsTheMessage : Prop :=
  ∀ (t3 t2 t1 t0 : Word) (s : State), s.cfg.wf = true → s.ph = .idle →
    exec (.schedset t3 t2 t1 t0) s = .next (linkStarted s 0x9 ((((s.arg.set 0 t3).set 1 t2).set 2 t1).set 3 t0) 1 .trg
      (s.cfg.op .trSched)
      ⟨t3, t2, t1, t0, s.cfg.fillWord, s.cfg.fillWord, s.cfg.fillWord, s.cfg.fillWord⟩ false)

/-- R203: `CNTRST` starts its message with filler. -/
def Obligations.CntrstStartsTheMessage : Prop :=
  ∀ s : State, s.cfg.wf = true → s.ph = .idle →
    exec .cntrst s = .next (linkStarted s 0xA s.arg 1 .trg (s.cfg.op .trCntrst)
      ⟨s.cfg.fillWord, s.cfg.fillWord, s.cfg.fillWord, s.cfg.fillWord,
       s.cfg.fillWord, s.cfg.fillWord, s.cfg.fillWord, s.cfg.fillWord⟩ false)

/-- R204: `SYNCHS t` starts the first of its four messages, TackState (1, 0), with no wait before it. -/
def Obligations.SynchsStartsByArming : Prop :=
  ∀ (t3 t2 t1 t0 : Word) (s : State), s.cfg.wf = true → s.ph = .idle →
    exec (.synchs t3 t2 t1 t0) s = .next (linkStarted s 0xB ((((s.arg.set 0 t3).set 1 t2).set 2 t1).set 3 t0) 4 .trg
      (s.cfg.op .trTack)
      ⟨s.cfg.packTack[4], s.cfg.fillWord, s.cfg.fillWord, s.cfg.fillWord,
       s.cfg.fillWord, s.cfg.fillWord, s.cfg.fillWord, s.cfg.fillWord⟩ false)

/-- R223: every cause of `InvalidParameter` gives `STAT <- 0x000E` and no other change, and no running request raises it. -/
def Obligations.InvalidParameterLeavesNoTrace : Prop :=
  (∀ (s : State) (w0 : Word) (ops : List Word) (rest : List (List Word)),
    s.ph = .idle → resetAsserted s = false → s.reqs = (w0 :: ops) :: rest →
    (w0.extractLsb' 4 12 ≠ 0#12 ∨ w0.extractLsb' 0 4 = 0#4 ∨ 12 ≤ (w0.extractLsb' 0 4).toNat) →
    step s = .next { s with reqs := rest, rst := s.rst.tail, stat := 0x000E }) ∧
  (∀ (cw : Word) (d : Payload) (s : State), s.ph = .idle → routeOf s.cfg cw = none →
    exec (.xfer cw d) s = .next { s with stat := 0x000E }) ∧
  (∀ (slot asic group : Word) (s : State), s.ph = .idle → (31 < slot.toNat ∨ 3 < asic.toNat ∨ 3 < group.toNat) →
    exec (.tmsgl slot asic group) s = .next { s with stat := 0x000E }) ∧
  (∀ (ty mo : Word) (s : State), s.ph = .idle → (3 < ty.toNat ∨ 3 < mo.toNat) →
    exec (.tackset ty mo) s = .next { s with stat := 0x000E }) ∧
  (∀ s t : State, Inv s → resetAsserted s = false → s.ph ≠ .idle → step s = .next t → statErr t.stat ≠ 3#3)

/-- R257: a request presented while the engine runs has no effect, whichever it is, and stays at the port; nothing that was
latched changes (R63, R101). -/
def Obligations.RequestsAreHeldWhileRunning : Prop :=
  (∀ (i : Instr) (s : State), s.ph ≠ .idle → exec i s = .next s) ∧
  (∀ s t : State, resetAsserted s = false → s.ph ≠ .idle → step s = .next t →
    t.reqs = s.reqs ∧ t.opr = s.opr ∧ t.arg = s.arg ∧ t.mask = s.mask ∧ msgs t = msgs s)

/-! ### Steps -/

/-- The accept step runs the instruction that the presented descriptor decodes to, with the descriptor taken from the port;
where none is presented the engine waits. -/
def Obligations.StepRunsThePresentedRequest : Prop :=
  (∀ (s : State) (q : List Word) (rest : List (List Word)) (i : Instr),
    resetAsserted s = false → s.ph = .idle → s.reqs = q :: rest → decode s.cfg q = .ok i →
    step s = exec i { s with reqs := rest, rst := s.rst.tail }) ∧
  (∀ s : State, resetAsserted s = false → s.ph = .idle → s.reqs = [] → step s = .next { s with rst := s.rst.tail })

/-- Log 6: a list of Words that is no descriptor (a legal code with another number of operand Words, or no Word) stops the
machine. -/
def Obligations.MalformedDescriptorStops : Prop :=
  ∀ (s : State) (q : List Word) (rest : List (List Word)), resetAsserted s = false → s.ph = .idle → s.reqs = q :: rest →
    (q = [] ∨ ∃ w0 ops, q = w0 :: ops ∧ 1 ≤ w0.toNat ∧ w0.toNat ≤ 11 ∧ ops.length ≠ operandCount w0.toNat) →
    step s = .fault .malformedDescriptor

/-- R108: a settle step is always enabled while the phase is `SETTLE`; it appends the wait's event, with the duration of the
current message, lets the exchanges begin, and changes nothing else. -/
def Obligations.SettleStepWaits : Prop :=
  ∀ s : State, Inv s → resetAsserted s = false → s.ph = .settle →
    ∃ (msg : Msg) (t : Nat), (msgs s)[s.mi.val]? = some msg ∧ msg.pre = some t ∧
      step s = .next { s with rst := s.rst.tail, hist := s.hist ++ [.settle t], ph := .xchg }

/-- R103: an exchange step is enabled while the phase is `XCHG`; it performs exactly one exchange, sending `TX[XI]` for
`XI <= 10` and `cfg.NULL_WORD` for `XI = 11`. -/
def Obligations.ExchangeSendsTheNextWord : Prop :=
  (∀ s : State, Inv s → resetAsserted s = false → s.ph = .xchg → ∃ t, step s = .next t) ∧
  (∀ s t : State, resetAsserted s = false → s.ph = .xchg → step s = .next t →
    ∃ w : Word, (∀ h : s.xi.val ≤ 10, w = s.tx[s.xi.val]) ∧ (s.xi.val = 11 → w = s.cfg.nullWord) ∧
      t.xcount = s.xcount + 1 ∧
      ((∃ r, t.hist = s.hist ++ [.xchg w r]) ∨ t.hist = s.hist ++ [.xchgFail w]))

/-- R104, R105: a word received on exchange `XI` of 1 to 10 is stored at response position `XI - 1` and the one received on
exchange 0 nowhere; the sequencer moves to the next exchange, and nothing else changes. -/
def Obligations.ReceivedWordIsStoredOneBack : Prop :=
  ∀ (s : State) (r : Word), resetAsserted s = false → s.ph = .xchg → (h : s.xi.val < 11) →
    peerReply s s.tx[s.xi.val] = .ok r →
    ∃ R : Vector (Vector Word 11) 4,
      step s = .next { s with
        rst := s.rst.tail, hist := s.hist ++ [.xchg s.tx[s.xi.val] r], peer := peerAfter s.peer s.tx[s.xi.val]
        xcount := s.xcount + 1, resp := R, xi := ⟨s.xi.val + 1, by omega⟩ } ∧
      ∀ (m : Fin 4) (p : Fin 11), R[m][p] = if m = s.mi ∧ p.val + 1 = s.xi.val then r else s.resp[m][p]

/-- R221 with the entry of R226: a failed exchange ends the request with `LinkFailure` at its message and exchange, stores
nothing in `RESP`, and keeps `ECHO`. -/
def Obligations.LinkFailureEndsTheRequest : Prop :=
  ∀ s : State, Inv s → resetAsserted s = false → s.ph = .xchg → peerReply s (outWord s) = .fail →
    ∃ w : Word,
      step s = .next { s with
        rst := s.rst.tail, hist := s.hist ++ [.xchgFail (outWord s)], peer := peerAfter s.peer (outWord s)
        xcount := s.xcount + 1, stat := w, ph := .idle, mi := 0, xi := 0 } ∧
      statErr w = 1#3 ∧ (statEmsg w).toNat = s.mi.val ∧ (statEpos w).toNat = s.xi.val ∧
      statBusy w = false ∧ statDone w = true ∧ statSbad w = false ∧ statEbad w = false ∧ statEcho w = statEcho s.stat ∧
      statZero w = 0#2

/-- R222 with the entry of R226: after the twelfth exchange a wrong start or end marker ends the request with
`FramingMismatch`, each wrong marker with its own bit, and the response kept whole and marked valid. -/
def Obligations.FramingMismatchEndsTheRequest : Prop :=
  ∀ (s : State) (t : Controller) (r : Word), Inv s → resetAsserted s = false → s.ph = .xchg → s.xi = 11 →
    s.tgt = some t → peerReply s s.cfg.nullWord = .ok r → (s.resp[s.mi][0] ≠ s.cfg.som t ∨ r ≠ s.cfg.eom t) →
    ∃ w : Word,
      step s = .next { s with
        rst := s.rst.tail, hist := s.hist ++ [.xchg s.cfg.nullWord r], peer := peerAfter s.peer s.cfg.nullWord
        xcount := s.xcount + 1, resp := s.resp.set s.mi (s.resp[s.mi].set 10 r), respv := s.respv.set s.mi true
        stat := w, ph := .idle, mi := 0, xi := 0 } ∧
      statErr w = 2#3 ∧ (statEmsg w).toNat = s.mi.val ∧ statEpos w = 0#4 ∧
      (statSbad w = true ↔ s.resp[s.mi][0] ≠ s.cfg.som t) ∧ (statEbad w = true ↔ r ≠ s.cfg.eom t) ∧
      statBusy w = false ∧ statDone w = true ∧ statZero w = 0#2 ∧
      (statEcho w = true ↔ statEcho s.stat = true ∨ s.resp[s.mi][1] ≠ s.tx[1])

/-- R106, R107, R225: a message whose markers are right is followed in the same step by the next one of the request, framed
for the controller it routes to (R102); a wrong command echo sets `ECHO` and nothing else. -/
def Obligations.NextMessageIsStarted : Prop :=
  ∀ (s : State) (t : Controller) (r : Word), Inv s → resetAsserted s = false → s.ph = .xchg → s.xi = 11 →
    s.tgt = some t → peerReply s s.cfg.nullWord = .ok r → s.resp[s.mi][0] = s.cfg.som t → r = s.cfg.eom t →
    (h : s.mi.val + 1 < s.nmsg.val) →
    ∃ (msg : Msg) (u : Controller), (msgs s)[s.mi.val + 1]? = some msg ∧ routeOf s.cfg msg.cw = some u ∧
      step s = .next { s with
        rst := s.rst.tail, hist := s.hist ++ [.xchg s.cfg.nullWord r], peer := peerAfter s.peer s.cfg.nullWord
        xcount := s.xcount + 1, resp := s.resp.set s.mi (s.resp[s.mi].set 10 r), respv := s.respv.set s.mi true
        stat := if s.resp[s.mi][1] ≠ s.tx[1] then 0x0021#16 else s.stat
        mi := ⟨s.mi.val + 1, by omega⟩, xi := 0, ph := if msg.pre.isSome then .settle else .xchg, tgt := some u
        tx := #v[s.cfg.som u, msg.cw, msg.d.d1, msg.d.d2, msg.d.d3, msg.d.d4, msg.d.d5, msg.d.d6, msg.d.d7, msg.d.d8,
          s.cfg.eom u] }

/-- R106, R107, R225: the last message of a request whose markers are right ends it with `DONE` and no error, `ECHO` telling
of a wrong command echo; `HPCAP` alone has a completion effect (R186), the reversal of R187. -/
def Obligations.LastMessageEndsTheRequest : Prop :=
  ∀ (s : State) (t : Controller) (r : Word), Inv s → resetAsserted s = false → s.ph = .xchg → s.xi = 11 →
    s.tgt = some t → peerReply s s.cfg.nullWord = .ok r → s.resp[s.mi][0] = s.cfg.som t → r = s.cfg.eom t →
    s.nmsg.val ≤ s.mi.val + 1 →
    ∃ hp : Vector Word 32,
      step s = .next { s with
        rst := s.rst.tail, hist := s.hist ++ [.xchg s.cfg.nullWord r], peer := peerAfter s.peer s.cfg.nullWord
        xcount := s.xcount + 1, resp := s.resp.set s.mi (s.resp[s.mi].set 10 r), respv := s.respv.set s.mi true
        stat := if s.resp[s.mi][1] ≠ s.tx[1] ∨ statEcho s.stat = true then 0x0022#16 else 0x0002#16
        mi := 0, xi := 0, ph := .idle, hp := hp, hpv := if s.opr = 0x7#4 then true else s.hpv } ∧
      (s.opr ≠ 0x7#4 → hp = s.hp) ∧
      (s.opr = 0x7#4 → ∀ (q : Fin 4) (j : Fin 8), hp[31 - 8 * q.val - j.val]'(by omega) = s.resp[q][2 + j.val]'(by omega))

/-- R250, R34: where `RST` is asserted the step puts every register at its reset value, whatever the engine was doing, sends
nothing and empties the history; `cfg` and the peer are not reset. Two clauses are the model's choices and no rule of the spec:
that a request presented at the same time stays at the port (log 7), and that the count of exchanges goes on (log 14). -/
def Obligations.ResetPutsEveryRegisterBack : Prop :=
  ∀ s : State, resetAsserted s = true →
    ∃ t, step s = .next t ∧ t.ph = .idle ∧ t.mi = 0 ∧ t.xi = 0 ∧ t.nmsg = 1 ∧ t.stat = 0x0000#16 ∧
      t.respv = Vector.replicate 4 false ∧ t.hpv = false ∧ t.mask = Vector.replicate 32 0xFFFF#16 ∧
      t.decr0 = 0x0000#16 ∧ t.decr1 = 0x0000#16 ∧ t.tgt = none ∧ t.hist = [] ∧
      t.cfg = s.cfg ∧ t.peer = s.peer ∧ t.xcount = s.xcount ∧ t.reqs = s.reqs

/-! ### Whole messages and whole requests -/

/-- R111, R110: against a peer that is well behaved for the message (R57) the twelve exchanges of a message, with whatever
Words it answers at exchange 0 and in the data positions, leave its response in the buffer of the message, add twelve events
in the order of R71 to the history, and neither set `ECHO` nor raise an error. -/
def Obligations.WellBehavedMessageDelivers : Prop :=
  ∀ (s : State) (t : Controller) (msg : Msg) (x : Word) (r : Payload) (more : List LinkAnswer),
    Inv s → RstQuiet s → s.ph = .xchg → s.xi = 0 → s.tgt = some t → (msgs s)[s.mi.val]? = some msg →
    s.peer = .oracle (goodAnswers s.cfg t msg.cw x r ++ more) →
    ∃ u, Host.Core.run Sys2Proof.core 12 s = .next u ∧
      u.resp = s.resp.set s.mi (goodResponse s.cfg t msg.cw r) ∧ u.respv = s.respv.set s.mi true ∧
      u.hist = s.hist ++ goodEvents s.cfg t msg.cw msg.d x r ∧
      u.peer = .oracle more ∧ u.xcount = s.xcount + 12 ∧ u.mask = s.mask ∧
      statErr u.stat = 0#3 ∧ statEcho u.stat = statEcho s.stat ∧
      (s.mi.val + 1 < s.nmsg.val → u.ph ≠ .idle ∧ u.mi.val = s.mi.val + 1 ∧ statBusy u.stat = true) ∧
      (s.nmsg.val ≤ s.mi.val + 1 → u.ph = .idle ∧ statDone u.stat = true ∧ statBusy u.stat = false)

/-- R112, R66: against the loopback peer (R65) every message comes back as it was sent, framed for the controller it was sent to,
with no error and no echo flag. -/
def Obligations.LoopbackReturnsTheMessage : Prop :=
  ∀ (s : State) (last : Word) (t : Controller) (msg : Msg), Inv s → RstQuiet s → s.ph = .xchg → s.xi = 0 →
    s.tgt = some t → (msgs s)[s.mi.val]? = some msg → s.peer = .loopback last →
    ∃ u, Host.Core.run Sys2Proof.core 12 s = .next u ∧
      u.resp = s.resp.set s.mi
        #v[s.cfg.som t, msg.cw, msg.d.d1, msg.d.d2, msg.d.d3, msg.d.d4, msg.d.d5, msg.d.d6, msg.d.d7, msg.d.d8, s.cfg.eom t] ∧
      u.resp = s.resp.set s.mi s.tx ∧ u.respv = s.respv.set s.mi true ∧ u.peer = .loopback s.cfg.nullWord ∧
      statErr u.stat = 0#3 ∧ statEcho u.stat = statEcho s.stat ∧
      (s.mi.val + 1 < s.nmsg.val → u.ph ≠ .idle ∧ u.mi.val = s.mi.val + 1) ∧
      (s.nmsg.val ≤ s.mi.val + 1 → u.ph = .idle ∧ statDone u.stat = true)

/-- R109 as a whole: an `XFER` presented to an idle engine, against a peer well behaved for its message, ends after its
acceptance, its settle wait if it is an analog readback, and its twelve exchanges, with the response in `RESP[0]`, only
`RESPV[0]` set, and `STAT = 0x0002`. -/
def Obligations.XferRunsToItsEnd : Prop :=
  ∀ (s : State) (cw : Word) (d : Payload) (t : Controller) (x : Word) (r : Payload) (more : List LinkAnswer)
    (rest : List (List Word)),
    Inv s → RstQuiet s → s.ph = .idle → s.reqs = (0x0001 :: cw :: d.toList) :: rest → routeOf s.cfg cw = some t →
    s.peer = .oracle (goodAnswers s.cfg t cw x r ++ more) →
    ∃ u, Host.Core.run Sys2Proof.core (if isAnalog (classify s.cfg cw) then 14 else 13) s = .next u ∧
      u.resp = s.resp.set 0 (goodResponse s.cfg t cw r) ∧ u.respv = #v[true, false, false, false] ∧
      u.stat = 0x0002#16 ∧ u.ph = .idle ∧ u.reqs = rest ∧
      u.hist = s.hist ++ (if isAnalog (classify s.cfg cw) then [Event.settle s.cfg.tAdc] else []) ++
        goodEvents s.cfg t cw d x r ∧
      u.mask = s.mask ∧ u.hp = s.hp ∧ u.hpv = s.hpv ∧ u.decr0 = s.decr0 ∧ u.decr1 = s.decr1

/-- R185 to R188 as a whole: an `HPCAP` against a well-behaved peer ends after 48 exchanges with the 32 data words of its
four captures stored back to front in `HP`, and `HPV` set. -/
def Obligations.HpcapStoresTheCapturesReversed : Prop :=
  ∀ (s : State) (x0 x1 x2 x3 : Word) (r0 r1 r2 r3 : Payload) (more : List LinkAnswer) (rest : List (List Word)),
    Inv s → RstQuiet s → s.ph = .idle → s.reqs = [0x0007] :: rest →
    s.peer = .oracle (goodAnswers s.cfg .trg (s.cfg.op .trHit0) x0 r0 ++ goodAnswers s.cfg .trg (s.cfg.op .trHit1) x1 r1 ++
      goodAnswers s.cfg .trg (s.cfg.op .trHit2) x2 r2 ++ goodAnswers s.cfg .trg (s.cfg.op .trHit3) x3 r3 ++ more) →
    ∃ u, Host.Core.run Sys2Proof.core 49 s = .next u ∧ u.ph = .idle ∧ u.stat = 0x0002#16 ∧ u.hpv = true ∧
      u.hp.toList = (r0.toList ++ r1.toList ++ r2.toList ++ r3.toList).reverse ∧
      u.respv = #v[true, true, true, true] ∧ u.mask = s.mask ∧ u.reqs = rest ∧ u.xcount = s.xcount + 48

/-- R177, R178, R66: a `TMSEND` against the loopback peer sends the four banks of the mask in ascending order in 48 exchanges,
reads back the mask it sent, and leaves the mask as it was. -/
def Obligations.TmsendReadsBackUnderLoopback : Prop :=
  ∀ (s : State) (last : Word) (rest : List (List Word)),
    Inv s → RstQuiet s → s.ph = .idle → s.reqs = [0x0006] :: rest → s.peer = .loopback last →
    ∃ u, Host.Core.run Sys2Proof.core 49 s = .next u ∧ u.ph = .idle ∧ u.stat = 0x0002#16 ∧ rdbk u = s.mask ∧
      u.mask = s.mask ∧ u.respv = #v[true, true, true, true] ∧ u.reqs = rest ∧ u.xcount = s.xcount + 48 ∧
      u.hist = s.hist ++
        goodEvents s.cfg .trg (s.cfg.op .trMask0) (maskPayload s.mask 0) last (maskPayload s.mask 0) ++
        goodEvents s.cfg .trg (s.cfg.op .trMask1) (maskPayload s.mask 1) s.cfg.nullWord (maskPayload s.mask 1) ++
        goodEvents s.cfg .trg (s.cfg.op .trMask2) (maskPayload s.mask 2) s.cfg.nullWord (maskPayload s.mask 2) ++
        goodEvents s.cfg .trg (s.cfg.op .trMask3) (maskPayload s.mask 3) s.cfg.nullWord (maskPayload s.mask 3)

/-- R204, R205: a `SYNCHS` that meets no error sends four messages with a settle wait between each two: TackState (1, 0), the
time, the counter reset, TackState (0, 0), 48 exchanges and 3 waits. -/
def Obligations.SynchsSendsTheHandshake : Prop :=
  ∀ (s : State) (t3 t2 t1 t0 x0 x1 x2 x3 : Word) (r0 r1 r2 r3 : Payload) (more : List LinkAnswer) (rest : List (List Word)),
    Inv s → RstQuiet s → s.ph = .idle → s.reqs = [0x000B, t3, t2, t1, t0] :: rest →
    s.peer = .oracle (goodAnswers s.cfg .trg (s.cfg.op .trTack) x0 r0 ++ goodAnswers s.cfg .trg (s.cfg.op .trSched) x1 r1 ++
      goodAnswers s.cfg .trg (s.cfg.op .trCntrst) x2 r2 ++ goodAnswers s.cfg .trg (s.cfg.op .trTack) x3 r3 ++ more) →
    ∃ u, Host.Core.run Sys2Proof.core 52 s = .next u ∧ u.ph = .idle ∧ u.stat = 0x0002#16 ∧ u.reqs = rest ∧
      u.hist = s.hist ++
        goodEvents s.cfg .trg (s.cfg.op .trTack) { fillPayload s.cfg with d1 := s.cfg.packTack[4] } x0 r0 ++
        [Event.settle s.cfg.tSync] ++
        goodEvents s.cfg .trg (s.cfg.op .trSched) { fillPayload s.cfg with d1 := t3, d2 := t2, d3 := t1, d4 := t0 } x1 r1 ++
        [Event.settle s.cfg.tSync] ++
        goodEvents s.cfg .trg (s.cfg.op .trCntrst) (fillPayload s.cfg) x2 r2 ++
        [Event.settle s.cfg.tSync] ++
        goodEvents s.cfg .trg (s.cfg.op .trTack) { fillPayload s.cfg with d1 := s.cfg.packTack[0] } x3 r3

/-- R268: from every state of the invariant in which a request runs, with no reset, the steps end the request whatever the peer
answers: `k` steps, `e` of them exchanges and the others settle waits, at most 48 exchanges and 3 waits, no wait for `TMSEND`
and `HPCAP`, and at most 12 exchanges and one wait for `XFER`. -/
def Obligations.EveryRequestEnds : Prop :=
  ∀ s : State, Inv s → RstQuiet s → s.ph ≠ .idle →
    ∃ (k e : Nat) (t : State), Host.Core.run Sys2Proof.core k s = .next t ∧ t.ph = .idle ∧ statDone t.stat = true ∧
      t.xcount = s.xcount + e ∧ e ≤ k ∧ e ≤ 48 ∧ k ≤ e + 3 ∧
      (s.opr = 0x6#4 ∨ s.opr = 0x7#4 → k = e) ∧ (s.opr = 0x1#4 → e ≤ 12 ∧ k ≤ e + 1)

/-! ### The whole machine -/

/-- The invariant holds after reset. -/
def Obligations.InvariantHoldsAtReset : Prop := Inv State.reset

/-- Every step keeps the invariant. -/
def Obligations.EveryStepKeepsTheInvariant : Prop := ∀ s t : State, Inv s → step s = .next t → Inv t

/-- From a state of the invariant a step always answers a next state, unless what the requester presents is no descriptor:
every phase has an enabled step (R268) and no error stops the block (R228). That Words which are no descriptor do stop an idle
engine is the model's choice (log 6); they stop neither a running engine nor a reset. -/
def Obligations.InvariantStatesNeverStop : Prop :=
  ∀ s : State, Inv s →
    (resetAsserted s = false → s.ph = .idle → ∀ q rest, s.reqs = q :: rest → decode s.cfg q ≠ .error .badLength ∧ decode s.cfg q ≠ .error .empty) →
    ∃ t, step s = .next t

/-- R252 (2): no step changes `cfg`. -/
def Obligations.ConfigurationNeverChanges : Prop := ∀ s t : State, step s = .next t → t.cfg = s.cfg

/-- R25, R27: with no reset, only the acceptance of `TMDEF`, `TMSGL` or `TMBLK` changes `MASK`, and only the acceptance of `DEC`
changes `DECR0` or `DECR1`. -/
def Obligations.MaskAndDecodeResultHaveTheirWriters : Prop :=
  ∀ s t : State, resetAsserted s = false → step s = .next t →
    (t.mask ≠ s.mask → s.ph = .idle ∧ ∃ q rest i, s.reqs = q :: rest ∧ decode s.cfg q = .ok i ∧
      (i = .tmdef ∨ (∃ a b c, i = .tmsgl a b c) ∨ ∃ a b, i = .tmblk a b)) ∧
    ((t.decr0 ≠ s.decr0 ∨ t.decr1 ≠ s.decr1) → s.ph = .idle ∧ ∃ q rest cw, s.reqs = q :: rest ∧
      decode s.cfg q = .ok (.dec cw))

/-- R26: with no reset, `HP` changes only in the step that ends an `HPCAP`, which leaves `HPV` set. -/
def Obligations.HitPatternIsWrittenByCaptureOnly : Prop :=
  ∀ s t : State, resetAsserted s = false → step s = .next t → t.hp ≠ s.hp →
    s.ph = .xchg ∧ s.opr = 0x7#4 ∧ s.xi = 11 ∧ s.nmsg.val ≤ s.mi.val + 1 ∧ t.hpv = true ∧ t.ph = .idle

/-- R50, R58, R62: with no reset the history only grows, by one event at each exchange or settle step and by none at any other;
no accept step, of whatever request, touches the link. -/
def Obligations.HistoryRecordsEachStepOnce : Prop :=
  ∀ s t : State, resetAsserted s = false → step s = .next t →
    (s.ph = .idle → t.hist = s.hist ∧ t.peer = s.peer ∧ t.xcount = s.xcount) ∧
    (s.ph = .settle → (∃ d, t.hist = s.hist ++ [.settle d]) ∧ t.peer = s.peer ∧ t.xcount = s.xcount) ∧
    (s.ph = .xchg → (∃ w a, t.hist = s.hist ++ [exchangeEvent w a]) ∧ t.xcount = s.xcount + 1)

/-- R57: a step never depends on what the oracle will answer, only on what it answers: two machines that differ only in the
answers after the next one make the same step. -/
def Obligations.StepsIgnoreLaterAnswers : Prop :=
  ∀ (s t : State) (a : LinkAnswer) (l m : List LinkAnswer), step { s with peer := .oracle (a :: l) } = .next t →
    (t.peer = .oracle l ∨ t.peer = .oracle (a :: l)) ∧
    ((t.peer = .oracle l → step { s with peer := .oracle (a :: m) } = .next { t with peer := .oracle m }) ∧
     (t.peer = .oracle (a :: l) → step { s with peer := .oracle (a :: m) } = .next { t with peer := .oracle (a :: m) }))

/-! ### Results -/

/-- R35, R227: a read of a word of a response buffer yields it when the engine is not running and the buffer is valid, or the last
request ended with `LinkFailure` in that message after the word had been received. Every other read yields any value (U8), which
is the read's argument `any`: that form of the free value is the model's choice (log 13), and so is that the words received before a
link failure are among the other reads from the next acceptance on (log 21). -/
def Obligations.ResponsesAreReadableWhenReceived : Prop :=
  ∀ (s : State) (m : Fin 4) (p : Fin 11) (any : Word),
    (statBusy s.stat = false →
      (s.respv[m] = true ∨
        (statErr s.stat = 1#3 ∧ (statEmsg s.stat).toNat = m.val ∧ p.val + 2 ≤ (statEpos s.stat).toNat)) →
      readResp s m p any = s.resp[m][p]) ∧
    (statBusy s.stat = true → readResp s m p any = any) ∧
    (statBusy s.stat = false → s.respv[m] = false →
      ¬(statErr s.stat = 1#3 ∧ (statEmsg s.stat).toNat = m.val ∧ p.val + 2 ≤ (statEpos s.stat).toNat) →
      readResp s m p any = any)

/-- R53, R256, R35, R159, R161: with the engine not running `RES` yields every result register, `HP` and its view `HIT` where `HPV`
says that they hold a capture, and from a valid `RESP[0]` the scaled count at position `2 + j` and each slot's presence bit; `STAT`
it yields at any time. -/
def Obligations.ResultsAreReadableWhenIdle : Prop :=
  (∀ s : State, readStat s = s.stat) ∧
  (∀ s : State, statBusy s.stat = false →
    (∀ (m : Fin 4) (any : Bool), readRespv s m any = s.respv[m]) ∧
    (∀ (k : Fin 32) (any : Word), readMask s k any = s.mask[k]) ∧
    (∀ any : Bool, readHpv s any = s.hpv) ∧
    (∀ any : Word, readDecr0 s any = s.decr0 ∧ readDecr1 s any = s.decr1) ∧
    (∀ (b : Fin 4) (j : Fin 8) (any : Word), s.respv[b] = true →
      readRdbk s ⟨8 * b.val + j.val, by omega⟩ any = s.resp[b][2 + j.val]'(by omega)) ∧
    (s.respv[0] = true →
      (∀ (k : AnalogClass) (sub : BitVec 8) (j : Fin 8) (any : Word),
        readAnalog s k sub j any = (s.resp[0][2 + j.val]'(by omega)).toNat * scaleOf s.cfg k sub j) ∧
      ∀ (slot : Fin 32) (any : Word),
        readPresent s slot any = s.resp[0][s.cfg.pres[slot].pos].getLsbD s.cfg.pres[slot].bit.val) ∧
    (s.hpv = true →
      (∀ (p : Fin 32) (any : Word), readHp s p any = s.hp[p]) ∧
      ∀ (p : Fin 32) (l n : Fin 4) (any : Bool), readHit s p l n any = s.hp[p].getLsbD (4 * n.val + l.val)))

/-- R78: what the response data words of message `m` mean, by the class of the command word the message sent: the data words
unchanged, one mask bank, one hit quadrant in capture order, the scaled counts of `RESP[0][2 + j]`, or the presence bits of
`RESP[0]`. -/
def Obligations.ResponseDataFormats : Prop :=
  (∀ (s : State) (m : Fin 4) (j : Fin 8), (dataWords s m)[j] = s.resp[m][2 + j.val]'(by omega)) ∧
  (∀ (s : State) (b : Fin 4) (j : Fin 8), (rdbk s)[8 * b.val + j.val]'(by omega) = s.resp[b][2 + j.val]'(by omega)) ∧
  (∀ (s : State) (k : AnalogClass) (sub : BitVec 8) (j : Fin 8),
    analogValue s k sub j = (s.resp[0][2 + j.val]'(by omega)).toNat * scaleOf s.cfg k sub j) ∧
  (∀ (s : State) (slot : Fin 32), slotPresent s slot = s.resp[0][s.cfg.pres[slot].pos].getLsbD s.cfg.pres[slot].bit.val) ∧
  (∀ (s : State) (m : Fin 4) (cw : Word),
    (classify s.cfg cw = some .hkVolt →
      reading s m cw = .analog (Vector.ofFn fun j => analogValue s .volt (cw.extractLsb' 0 8) j)) ∧
    (classify s.cfg cw = some .hkCurr →
      reading s m cw = .analog (Vector.ofFn fun j => analogValue s .curr (cw.extractLsb' 0 8) j)) ∧
    (classify s.cfg cw = some .hkEnv → reading s m cw = .analog (Vector.ofFn fun j => analogValue s .env 0 j)) ∧
    (classify s.cfg cw = some .hkBrd → reading s m cw = .analog (Vector.ofFn fun j => analogValue s .brd 0 j)) ∧
    (classify s.cfg cw = some .hkPres → reading s m cw = .presence (Vector.ofFn fun slot => slotPresent s slot)) ∧
    (classify s.cfg cw ∈ [some CmdClass.trMask0, some .trMask1, some .trMask2, some .trMask3] →
      reading s m cw = .maskBank (dataWords s m)) ∧
    (classify s.cfg cw ∈ [some CmdClass.trHit0, some .trHit1, some .trHit2, some .trHit3] →
      reading s m cw = .hitQuadrant (dataWords s m)) ∧
    (classify s.cfg cw ∉ [some CmdClass.hkVolt, some .hkCurr, some .hkEnv, some .hkBrd, some .hkPres, some .trMask0,
        some .trMask1, some .trMask2, some .trMask3, some .trHit0, some .trHit1, some .trHit2, some .trHit3] →
      reading s m cw = .raw (dataWords s m)))

/-- R187: the raw sequence is stored back to front, capture `q` filling positions `31 - 8q` down. -/
def Obligations.ReorderReversesTheCaptures : Prop :=
  (∀ (raw : Vector Word 32) (i : Fin 32), (reorder raw)[31 - i.val] = raw[i]) ∧
  (∀ (resp : Vector (Vector Word 11) 4) (q : Fin 4) (j : Fin 8),
    (reorder (respData resp))[31 - 8 * q.val - j.val]'(by omega) = resp[q][2 + j.val]'(by omega))

/-- R31: the two views are functions of the registers: the mask readback is the data words of the four responses, and the lane
array is the lanes of `HP`. -/
def Obligations.ViewsAreFunctionsOfTheRegisters : Prop :=
  (∀ (s : State) (b : Fin 4) (j : Fin 8), (rdbk s)[8 * b.val + j.val]'(by omega) = s.resp[b][2 + j.val]'(by omega)) ∧
  (∀ s : State, hit s = lanes s.hp) ∧
  (∀ s t : State, s.resp = t.resp → s.hp = t.hp → rdbk s = rdbk t ∧ hit s = hit t)

/-- R189: lane `l` of a word is its bits `l`, `l + 4`, `l + 8`, `l + 12`, each of the 16 bits is used exactly once, and a lane's
number has nibble 0 least significant. -/
def Obligations.LanesTakeOneBitOfEachNibble : Prop :=
  (∀ (hp : Vector Word 32) (p : Fin 32) (l n : Fin 4), (lanes hp)[p][l][n] = hp[p].getLsbD (4 * n.val + l.val)) ∧
  (∀ b : Fin 16, ∃ l n : Fin 4, (∀ w : Word, (wordLanes w)[l][n] = w.getLsbD b.val) ∧
    ∀ l' n' : Fin 4, (∀ w : Word, (wordLanes w)[l'][n'] = w.getLsbD b.val) → l' = l ∧ n' = n) ∧
  (∀ (w : Word) (l : Fin 4), laneNumber (wordLanes w)[l] =
    (w.getLsbD l.val).toNat + 2 * (w.getLsbD (l.val + 4)).toNat + 4 * (w.getLsbD (l.val + 8)).toNat +
      8 * (w.getLsbD (l.val + 12)).toNat)

/-- R191: what `Unlanes`, `Unreorder`, `Encode` and `DecodeHP` are; the encoder inverts the decoder and the decoder the encoder. -/
def Obligations.HitPatternRoundTrips : Prop :=
  (∀ (h : HitArray) (p : Fin 32) (l n : Fin 4), (unlanes h)[p].getLsbD (4 * n.val + l.val) = h[p][l][n]) ∧
  (∀ (hp : Vector Word 32) (i : Fin 32), (unreorder hp)[i] = hp[31 - i.val]) ∧
  (∀ h : HitArray, encodeHp h = unreorder (unlanes h)) ∧ (∀ raw : Vector Word 32, decodeHp raw = lanes (reorder raw)) ∧
  (∀ raw : Vector Word 32, encodeHp (decodeHp raw) = raw) ∧ (∀ h : HitArray, decodeHp (encodeHp h) = h)

/-- R194: a raw capture of zeros but for word 24, which is 0x0008, has exactly one active lane bit, `HIT[7][3][0]`. -/
def Obligations.SingleHitDecodesToOneLane : Prop :=
  (reorder ((Vector.replicate 32 0x0000#16).set 24 0x0008#16))[7] = 0x0008#16 ∧
  ∀ (p : Fin 32) (l n : Fin 4),
    (decodeHp ((Vector.replicate 32 0x0000#16).set 24 0x0008#16))[p][l][n] = true ↔ p = 7 ∧ l = 3 ∧ n = 0

/-- R77: the two packings of a TimeValue are inverse, most significant word first. -/
def Obligations.TimeWordsAreInverse : Prop :=
  (∀ t : BitVec 64,
    timeToWords t = [t.extractLsb' 48 16, t.extractLsb' 32 16, t.extractLsb' 16 16, t.extractLsb' 0 16] ∧
    wordsToTime (t.extractLsb' 48 16) (t.extractLsb' 32 16) (t.extractLsb' 16 16) (t.extractLsb' 0 16) = t) ∧
  (∀ w0 w1 w2 w3 : Word,
    (wordsToTime w0 w1 w2 w3).toNat = w0.toNat * 2 ^ 48 + w1.toNat * 2 ^ 32 + w2.toNat * 2 ^ 16 + w3.toNat ∧
    timeToWords (wordsToTime w0 w1 w2 w3) = [w0, w1, w2, w3]) ∧
  timeToWords 0x0123456789ABCDEF = [0x0123, 0x4567, 0x89AB, 0xCDEF] ∧ timeToWords 4 = [0x0000, 0x0000, 0x0000, 0x0004]

/-- R159: an analog value is the exact product of the raw count and the channel's scale. -/
def Obligations.AnalogValuesAreExactProducts : Prop :=
  ∀ (c : Cfg) (k : AnalogClass) (sub : BitVec 8) (j : Fin 8) (raw : Word), c.wf = true →
    analogDecode c k sub j raw * ((scaleOfRail c (railOf c k sub j)).den : Rat) =
      (raw.toNat : Rat) * ((scaleOfRail c (railOf c k sub j)).num : Rat)

/-- R161 with the table of `REFCFG` (R81): slot `s` is present when bit `s mod 16` of response position `2 + s div 16` is set. -/
def Obligations.PresenceBitsOfReferenceTable : Prop :=
  ∀ (resp : Vector Word 11) (slot : Fin 32),
    present refCfg resp slot = (resp[2 + slot.val / 16]'(by omega)).getLsbD (slot.val % 16)
end

