-- ==== Sys2Proof/Laws/Decode.lean ====
section
/-! SUPPORT. What a well-formed configuration gives: each Word has at most one class, and every command word its class, its
controller and its bank. -/

namespace Sys2Proof

theorem CmdClass.mem_all (k : CmdClass) : k ∈ CmdClass.all := by cases k <;> decide

theorem Cfg.wf_disjoint {c : Cfg} (h : c.wf = true) : c.allDisjoint = true := by
  simp only [Cfg.wf, Bool.and_eq_true] at h; exact h.1.1.1.1.1.2

theorem Cfg.wf_routes {c : Cfg} (h : c.wf = true) : c.routesNamed = true := by
  simp only [Cfg.wf, Bool.and_eq_true] at h; exact h.1.1.1.1.2

theorem Cfg.wf_banks {c : Cfg} (h : c.wf = true) : c.banksLowByteZero = true := by
  simp only [Cfg.wf, Bool.and_eq_true] at h; exact h.1.2

theorem Cfg.wf_ranges {c : Cfg} (h : c.wf = true) : c.rangesHold = true := by
  simp only [Cfg.wf, Bool.and_eq_true] at h; exact h.2

/-- The three scales of a well-formed configuration have a positive denominator (R7). -/
theorem Cfg.scale_den_pos {c : Cfg} (h : c.wf = true) :
    0 < c.scale12V.den ∧ 0 < c.scaleLv.den ∧ 0 < c.scaleEnv.den := by
  have h := Cfg.wf_ranges h
  simp only [Cfg.rangesHold, List.all_cons, List.all_nil, Bool.and_eq_true, decide_eq_true_eq, Bool.and_true] at h
  exact ⟨h.2.1.2, h.2.2.1.2, h.2.2.2.2⟩

/-- Two Words that agree with two patterns at one Word agree where both patterns look. -/
theorem masked_agree (cw a b m n : Word) (h : cw &&& m = a) (g : cw &&& n = b) : (a ^^^ b) &&& m &&& n = 0#16 := by
  subst h g
  apply BitVec.eq_of_getLsbD_eq
  intro i _
  simp only [BitVec.getLsbD_and, BitVec.getLsbD_xor, BitVec.getLsbD_zero]
  cases cw.getLsbD i <;> cases m.getLsbD i <;> cases n.getLsbD i <;> rfl

/-- At most one class matches a Word (R122). -/
theorem cmdMatches_unique {c : Cfg} (h : c.wf = true) {k l : CmdClass} {cw : Word} (hk : c.cmdMatches k cw = true)
    (hl : c.cmdMatches l cw = true) : k = l := by
  have hd := Cfg.wf_disjoint h
  simp only [Cfg.allDisjoint, List.all_eq_true] at hd
  have hkl := hd k k.mem_all l l.mem_all
  simp only [Bool.or_eq_true, beq_iff_eq, Cfg.patternsDisjoint, bne_iff_ne, ne_eq] at hkl
  rcases hkl with e | e
  · exact e
  · simp only [Cfg.cmdMatches, beq_iff_eq] at hk hl
    exact absurd (masked_agree cw _ _ _ _ hk hl) e

/-- `Classify` is the class whose pattern matches (R122). -/
theorem classify_eq_some {c : Cfg} (h : c.wf = true) {k : CmdClass} {cw : Word} :
    classify c cw = some k ↔ c.cmdMatches k cw = true := by
  constructor
  · intro hc
    exact List.find?_some (p := fun k => c.cmdMatches k cw) hc
  · intro hk
    cases hc : classify c cw with
    | none =>
      have := List.find?_eq_none.mp hc k k.mem_all
      exact absurd hk this
    | some l =>
      have hl : c.cmdMatches l cw = true := List.find?_some (p := fun k => c.cmdMatches k cw) hc
      rw [cmdMatches_unique h hk hl]

theorem cmdMatches_plain {c : Cfg} {k : CmdClass} {cw : Word} (hf : k.format = .plain) :
    c.cmdMatches k cw = true ↔ cw = c.op k := by
  simp only [Cfg.cmdMatches, CmdClass.matchMask, hf, beq_iff_eq]
  have : cw &&& 0xFFFF#16 = cw := by
    have := BitVec.and_allOnes (x := cw)
    exact this
  rw [this]

theorem cmdMatches_banked {c : Cfg} {k : CmdClass} {cw : Word} (hf : k.format = .banked) :
    c.cmdMatches k cw = true ↔ cw &&& 0xFF00#16 = c.op k := by
  simp only [Cfg.cmdMatches, CmdClass.matchMask, hf, beq_iff_eq]

theorem banked_low_zero {c : Cfg} (h : c.wf = true) {k : CmdClass} (hf : k.format = .banked) :
    (c.op k).extractLsb' 0 8 = 0#8 := by
  have hb := Cfg.wf_banks h
  simp only [Cfg.banksLowByteZero, Bool.and_eq_true, beq_iff_eq] at hb
  cases k <;> first | exact hb.1 | exact hb.2 | (simp [CmdClass.format] at hf)

theorem getLsbD_mask_high (i : Nat) (hi : i < 16) : (0xFF00#16 : Word).getLsbD i = decide (8 ≤ i) := by
  revert hi i; decide

theorem low_bits_false {w : Word} (h : w.extractLsb' 0 8 = 0#8) (i : Nat) (hi : i < 8) : w.getLsbD i = false := by
  have := congrArg (fun v => v.getLsbD i) h
  simpa [BitVec.getLsbD_extractLsb', hi] using this

/-- A Word with low byte 0 plus a byte is the Word with that low byte. -/
theorem add_low_byte {w : Word} (h : w.extractLsb' 0 8 = 0#8) (b : BitVec 8) : w + b.setWidth 16 = w ||| b.setWidth 16 := by
  apply BitVec.add_eq_or_of_and_eq_zero
  apply BitVec.eq_of_getLsbD_eq
  intro i hi
  simp only [BitVec.getLsbD_and, BitVec.getLsbD_setWidth, BitVec.getLsbD_zero]
  by_cases h8 : i < 8
  · rw [low_bits_false h i h8]; rfl
  · rw [BitVec.getLsbD_of_ge b i (by omega)]; simp

theorem getLsbD_add_low_byte {w : Word} (h : w.extractLsb' 0 8 = 0#8) (b : BitVec 8) (i : Nat) (hi : i < 16) :
    (w + b.setWidth 16).getLsbD i = if i < 8 then b.getLsbD i else w.getLsbD i := by
  rw [add_low_byte h]
  simp only [BitVec.getLsbD_or, BitVec.getLsbD_setWidth, hi, decide_true, Bool.true_and]
  split
  · rw [low_bits_false h i ‹_›, Bool.false_or]
  · rw [BitVec.getLsbD_of_ge b i (by omega), Bool.or_false]

/-- The bank of a banked command word is its low byte (R74). -/
theorem subOf_bankedWord {c : Cfg} (h : c.wf = true) {k : CmdClass} (hf : k.format = .banked) (b : BitVec 8) :
    subOf (bankedWord c k b) = b := by
  apply BitVec.eq_of_getLsbD_eq
  intro i hi
  simp only [subOf, bankedWord, BitVec.getLsbD_extractLsb', hi, decide_true, Bool.true_and, Nat.zero_add]
  rw [getLsbD_add_low_byte (banked_low_zero h hf) b i (by omega), if_pos hi]

theorem bankedWord_masked {c : Cfg} (h : c.wf = true) {k : CmdClass} (hf : k.format = .banked) (b : BitVec 8) :
    bankedWord c k b &&& 0xFF00#16 = c.op k := by
  apply BitVec.eq_of_getLsbD_eq
  intro i hi
  have hl := banked_low_zero h hf
  simp only [bankedWord, BitVec.getLsbD_and]
  rw [getLsbD_add_low_byte hl b i hi, getLsbD_mask_high i hi]
  by_cases h8 : i < 8
  · rw [if_pos h8, low_bits_false hl i h8]; simp; intro; omega
  · rw [if_neg h8]; simp; intro _; omega

/-- A word of a banked class is its pattern plus its low byte. -/
theorem bankedWord_subOf {c : Cfg} {k : CmdClass} (h : c.wf = true) (hf : k.format = .banked) {cw : Word}
    (hm : cw &&& 0xFF00#16 = c.op k) : bankedWord c k (subOf cw) = cw := by
  apply BitVec.eq_of_getLsbD_eq
  intro i hi
  simp only [bankedWord]
  rw [getLsbD_add_low_byte (banked_low_zero h hf) _ i hi]
  split
  · rename_i h8
    simp [subOf, h8]
  · rename_i h8
    rw [← hm, BitVec.getLsbD_and, getLsbD_mask_high i hi]
    simp; intro _; omega

/-- A plain command word is of its class (R122). -/
theorem classify_op {c : Cfg} (h : c.wf = true) {k : CmdClass} (hf : k.format = .plain) : classify c (c.op k) = some k :=
  (classify_eq_some h).mpr ((cmdMatches_plain hf).mpr rfl)

/-- A banked command word is of its class whatever its bank (R122). -/
theorem classify_bankedWord {c : Cfg} (h : c.wf = true) {k : CmdClass} (hf : k.format = .banked) (b : BitVec 8) :
    classify c (bankedWord c k b) = some k :=
  (classify_eq_some h).mpr ((cmdMatches_banked hf).mpr (bankedWord_masked h hf b))

/-- Every plain command word routes to its controller (R8 item 3). -/
theorem routeOf_op {c : Cfg} (h : c.wf = true) (k : CmdClass) : routeOf c (c.op k) = some k.controller := by
  have hr := Cfg.wf_routes h
  simp only [Cfg.routesNamed, List.all_eq_true, beq_iff_eq] at hr
  exact hr k k.mem_all

theorem catOf_bankedWord {c : Cfg} (h : c.wf = true) {k : CmdClass} (hf : k.format = .banked) (b : BitVec 8) :
    catOf (bankedWord c k b) = catOf (c.op k) := by
  apply BitVec.eq_of_getLsbD_eq
  intro i hi
  simp only [catOf, bankedWord, BitVec.getLsbD_extractLsb', hi, decide_true, Bool.true_and]
  rw [getLsbD_add_low_byte (banked_low_zero h hf) b _ (by omega), if_neg (by omega)]

/-- Every banked command word routes to its controller, whatever its bank (R8 item 3). -/
theorem routeOf_bankedWord {c : Cfg} (h : c.wf = true) {k : CmdClass} (hf : k.format = .banked) (b : BitVec 8) :
    routeOf c (bankedWord c k b) = some k.controller := by
  rw [← routeOf_op h k]
  simp only [routeOf, catOf_bankedWord h hf b]

/-- Words of one category route alike (R121). -/
theorem routeOf_congr (c : Cfg) {a b : Word} (h : catOf a = catOf b) : routeOf c a = routeOf c b := by
  simp only [routeOf, h]

/-! ### Descriptors -/

/-- Word 0 of a descriptor that is no request code of R85. -/
theorem decode_reserved (c : Cfg) (w0 : Word) (ops : List Word)
    (h : w0.extractLsb' 4 12 ≠ 0#12 ∨ w0.extractLsb' 0 4 = 0#4 ∨ 12 ≤ (w0.extractLsb' 0 4).toNat) :
    decode c (w0 :: ops) = .error .reservedCode := by
  have hn : w0.toNat = 0 ∨ 12 ≤ w0.toNat := by
    have h12 : (w0.extractLsb' 4 12).toNat = w0.toNat / 16 % 4096 := by
      simp [BitVec.extractLsb'_toNat, Nat.shiftRight_eq_div_pow]
    have h4 : (w0.extractLsb' 0 4).toNat = w0.toNat % 16 := by simp [BitVec.extractLsb'_toNat]
    have hlt := w0.isLt
    rcases h with h | h | h
    · have : (w0.extractLsb' 4 12).toNat ≠ 0 := fun he => h (BitVec.eq_of_toNat_eq he)
      omega
    · have : (w0.extractLsb' 0 4).toNat = 0 := by rw [h]; rfl
      omega
    · omega
  simp only [decode]
  split <;> first | omega | rfl

/-- A legal request code with another number of operand Words than R85 fixes. -/
theorem decode_badLength (c : Cfg) (w0 : Word) (ops : List Word) (h1 : 1 ≤ w0.toNat) (h2 : w0.toNat ≤ 11)
    (h3 : ops.length ≠ operandCount w0.toNat) : decode c (w0 :: ops) = .error .badLength := by
  simp only [decode]
  generalize w0.toNat = n at *
  have hn : n = 1 ∨ n = 2 ∨ n = 3 ∨ n = 4 ∨ n = 5 ∨ n = 6 ∨ n = 7 ∨ n = 8 ∨ n = 9 ∨ n = 10 ∨ n = 11 := by omega
  rcases hn with rfl | rfl | rfl | rfl | rfl | rfl | rfl | rfl | rfl | rfl | rfl <;> simp only [operandCount] at h3 <;>
    simp only [decodeXfer, decodeOne, decodeNone, decodeTwo, decodeThree, decodeFour] <;> split <;> first | rfl | simp at h3

end Sys2Proof
end

