-- ==== Sys2Proof/Laws/Flags.lean ====
section
/-! SUPPORT. What each writing of `STAT` and of `DECR1` leaves in its fields. -/

namespace Sys2Proof.Machine

/-- `STAT` after `InvalidParameter` is 0x000E (R226). -/
theorem errorStat_invalid (mi : Fin 4) (xi : Fin 12) (w : Word) : errorStat .invalidParameter mi xi w = 0x000E#16 := rfl

theorem statRunning_eq : statRunning = 0x0001#16 := rfl

theorem statFinished_eq : statFinished = 0x0002#16 := rfl

/-- The fields of `STAT` after a `LinkFailure` of a running request (R221, R226). -/
theorem errorStat_link {w : Word} (h : w = 0x0001#16 ∨ w = 0x0021#16) (mi : Fin 4) (xi : Fin 12) :
    statErr (errorStat .linkFailure mi xi w) = 1#3 ∧ (statEmsg (errorStat .linkFailure mi xi w)).toNat = mi.val ∧
    (statEpos (errorStat .linkFailure mi xi w)).toNat = xi.val ∧ statBusy (errorStat .linkFailure mi xi w) = false ∧
    statDone (errorStat .linkFailure mi xi w) = true ∧ statSbad (errorStat .linkFailure mi xi w) = false ∧
    statEbad (errorStat .linkFailure mi xi w) = false ∧ statEcho (errorStat .linkFailure mi xi w) = statEcho w ∧
    statZero (errorStat .linkFailure mi xi w) = 0#2 := by
  rcases h with rfl | rfl <;> revert mi xi <;> decide

/-- The fields of `STAT` after a `FramingMismatch` of a running request (R222, R226). -/
theorem errorStat_framing {w : Word} (h : w = 0x0001#16 ∨ w = 0x0021#16) (sbad ebad : Bool) (mi : Fin 4) (xi : Fin 12) :
    statErr (errorStat (.framingMismatch sbad ebad) mi xi w) = 2#3 ∧
    (statEmsg (errorStat (.framingMismatch sbad ebad) mi xi w)).toNat = mi.val ∧
    statEpos (errorStat (.framingMismatch sbad ebad) mi xi w) = 0#4 ∧
    statSbad (errorStat (.framingMismatch sbad ebad) mi xi w) = sbad ∧
    statEbad (errorStat (.framingMismatch sbad ebad) mi xi w) = ebad ∧
    statBusy (errorStat (.framingMismatch sbad ebad) mi xi w) = false ∧
    statDone (errorStat (.framingMismatch sbad ebad) mi xi w) = true ∧
    statEcho (errorStat (.framingMismatch sbad ebad) mi xi w) = statEcho w ∧
    statZero (errorStat (.framingMismatch sbad ebad) mi xi w) = 0#2 := by
  have hx : errorStat (.framingMismatch sbad ebad) mi xi w = errorStat (.framingMismatch sbad ebad) mi 0 w := rfl
  rw [hx]
  clear hx
  rcases h with rfl | rfl <;> revert sbad ebad mi <;> decide

/-- `STAT` at the end of a request without error: `DONE`, and `ECHO` if it was set (R107). -/
theorem completeStat_running {w : Word} (h : w = 0x0001#16 ∨ w = 0x0021#16) :
    completeStat w = if statEcho w then 0x0022#16 else 0x0002#16 := by
  rcases h with rfl | rfl <;> decide

/-- `STAT.ECHO <- 1` on a running request's `STAT` (R106). -/
theorem setEcho_running {w : Word} (h : w = 0x0001#16 ∨ w = 0x0021#16) : setEcho true w = 0x0021#16 := by
  rcases h with rfl | rfl <;> decide

/-- What idle `STAT` may hold after each way to become idle. -/
theorem idleStat_link {w : Word} (h : w = 0x0001#16 ∨ w = 0x0021#16) (mi : Fin 4) (xi : Fin 12) :
    IdleStat (errorStat .linkFailure mi xi w) := by
  obtain ⟨h1, h2, h3, h4, h5, h6, h7, h8, h9⟩ := errorStat_link h mi xi
  constructor <;> simp [*]
  omega

theorem idleStat_framing {w : Word} (h : w = 0x0001#16 ∨ w = 0x0021#16) (sbad ebad : Bool) (hb : sbad = true ∨ ebad = true)
    (mi : Fin 4) (xi : Fin 12) : IdleStat (errorStat (.framingMismatch sbad ebad) mi xi w) := by
  obtain ⟨h1, h2, h3, h4, h5, h6, h7, h8, h9⟩ := errorStat_framing h sbad ebad mi xi
  constructor <;> simp [*]

theorem idleStat_invalid : IdleStat 0x000E#16 := by constructor <;> decide

theorem idleStat_done : IdleStat 0x0002#16 := by constructor <;> decide

theorem idleStat_doneEcho : IdleStat 0x0022#16 := by constructor <;> decide

theorem idleStat_reset : IdleStat 0x0000#16 := by constructor <;> decide

/-- The fields of `DECR1` after `DEC` (R123). -/
theorem decodeResult_fields (c : Cfg) (cw : Word) :
    (decrCls (decodeResult c cw)).toNat = (match classify c cw with | none => 0 | some k => k.id) ∧
    (decrTgtd (decodeResult c cw)).toNat = (match routeOf c cw with | none => 0 | some .hk => 1 | some .trg => 2) ∧
    decrBanked (decodeResult c cw) = isBanked (classify c cw) ∧ decrSubv (decodeResult c cw) = bankValid c cw ∧
    decrAnalog (decodeResult c cw) = isAnalog (classify c cw) ∧ decrZero (decodeResult c cw) = 0#5 := by
  unfold decodeResult
  generalize isBanked (classify c cw) = a
  generalize bankValid c cw = b
  generalize isAnalog (classify c cw) = d
  generalize routeOf c cw = t
  cases classify c cw with
  | none => rcases t with _ | _ | _ <;> revert a b d <;> decide
  | some k => rcases t with _ | _ | _ <;> cases k <;> revert a b d <;> decide

end Sys2Proof.Machine
end

