-- ==== Sys2Proof/Laws/State.lean ====
section
/-! SUPPORT. For each named update of the state, what each field is after it. -/

namespace Sys2Proof.Machine

/-! ### `setPh` -/

@[simp] theorem setPh_cfg (p : Phase) (s : State) : (setPh p s).cfg = s.cfg := rfl
@[simp] theorem setPh_opr (p : Phase) (s : State) : (setPh p s).opr = s.opr := rfl
@[simp] theorem setPh_arg (p : Phase) (s : State) : (setPh p s).arg = s.arg := rfl
@[simp] theorem setPh_tx (p : Phase) (s : State) : (setPh p s).tx = s.tx := rfl
@[simp] theorem setPh_tgt (p : Phase) (s : State) : (setPh p s).tgt = s.tgt := rfl
@[simp] theorem setPh_resp (p : Phase) (s : State) : (setPh p s).resp = s.resp := rfl
@[simp] theorem setPh_respv (p : Phase) (s : State) : (setPh p s).respv = s.respv := rfl
@[simp] theorem setPh_mask (p : Phase) (s : State) : (setPh p s).mask = s.mask := rfl
@[simp] theorem setPh_hp (p : Phase) (s : State) : (setPh p s).hp = s.hp := rfl
@[simp] theorem setPh_hpv (p : Phase) (s : State) : (setPh p s).hpv = s.hpv := rfl
@[simp] theorem setPh_decr0 (p : Phase) (s : State) : (setPh p s).decr0 = s.decr0 := rfl
@[simp] theorem setPh_decr1 (p : Phase) (s : State) : (setPh p s).decr1 = s.decr1 := rfl
@[simp] theorem setPh_stat (p : Phase) (s : State) : (setPh p s).stat = s.stat := rfl
@[simp] theorem setPh_ph (p : Phase) (s : State) : (setPh p s).ph = p := rfl
@[simp] theorem setPh_nmsg (p : Phase) (s : State) : (setPh p s).nmsg = s.nmsg := rfl
@[simp] theorem setPh_mi (p : Phase) (s : State) : (setPh p s).mi = s.mi := rfl
@[simp] theorem setPh_xi (p : Phase) (s : State) : (setPh p s).xi = s.xi := rfl
@[simp] theorem setPh_hist (p : Phase) (s : State) : (setPh p s).hist = s.hist := rfl
@[simp] theorem setPh_reqs (p : Phase) (s : State) : (setPh p s).reqs = s.reqs := rfl
@[simp] theorem setPh_rst (p : Phase) (s : State) : (setPh p s).rst = s.rst := rfl
@[simp] theorem setPh_peer (p : Phase) (s : State) : (setPh p s).peer = s.peer := rfl
@[simp] theorem setPh_xcount (p : Phase) (s : State) : (setPh p s).xcount = s.xcount := rfl

/-! ### `setMi` -/

@[simp] theorem setMi_cfg (m : Fin 4) (s : State) : (setMi m s).cfg = s.cfg := rfl
@[simp] theorem setMi_opr (m : Fin 4) (s : State) : (setMi m s).opr = s.opr := rfl
@[simp] theorem setMi_arg (m : Fin 4) (s : State) : (setMi m s).arg = s.arg := rfl
@[simp] theorem setMi_tx (m : Fin 4) (s : State) : (setMi m s).tx = s.tx := rfl
@[simp] theorem setMi_tgt (m : Fin 4) (s : State) : (setMi m s).tgt = s.tgt := rfl
@[simp] theorem setMi_resp (m : Fin 4) (s : State) : (setMi m s).resp = s.resp := rfl
@[simp] theorem setMi_respv (m : Fin 4) (s : State) : (setMi m s).respv = s.respv := rfl
@[simp] theorem setMi_mask (m : Fin 4) (s : State) : (setMi m s).mask = s.mask := rfl
@[simp] theorem setMi_hp (m : Fin 4) (s : State) : (setMi m s).hp = s.hp := rfl
@[simp] theorem setMi_hpv (m : Fin 4) (s : State) : (setMi m s).hpv = s.hpv := rfl
@[simp] theorem setMi_decr0 (m : Fin 4) (s : State) : (setMi m s).decr0 = s.decr0 := rfl
@[simp] theorem setMi_decr1 (m : Fin 4) (s : State) : (setMi m s).decr1 = s.decr1 := rfl
@[simp] theorem setMi_stat (m : Fin 4) (s : State) : (setMi m s).stat = s.stat := rfl
@[simp] theorem setMi_ph (m : Fin 4) (s : State) : (setMi m s).ph = s.ph := rfl
@[simp] theorem setMi_nmsg (m : Fin 4) (s : State) : (setMi m s).nmsg = s.nmsg := rfl
@[simp] theorem setMi_mi (m : Fin 4) (s : State) : (setMi m s).mi = m := rfl
@[simp] theorem setMi_xi (m : Fin 4) (s : State) : (setMi m s).xi = s.xi := rfl
@[simp] theorem setMi_hist (m : Fin 4) (s : State) : (setMi m s).hist = s.hist := rfl
@[simp] theorem setMi_reqs (m : Fin 4) (s : State) : (setMi m s).reqs = s.reqs := rfl
@[simp] theorem setMi_rst (m : Fin 4) (s : State) : (setMi m s).rst = s.rst := rfl
@[simp] theorem setMi_peer (m : Fin 4) (s : State) : (setMi m s).peer = s.peer := rfl
@[simp] theorem setMi_xcount (m : Fin 4) (s : State) : (setMi m s).xcount = s.xcount := rfl

/-! ### `setXi` -/

@[simp] theorem setXi_cfg (x : Fin 12) (s : State) : (setXi x s).cfg = s.cfg := rfl
@[simp] theorem setXi_opr (x : Fin 12) (s : State) : (setXi x s).opr = s.opr := rfl
@[simp] theorem setXi_arg (x : Fin 12) (s : State) : (setXi x s).arg = s.arg := rfl
@[simp] theorem setXi_tx (x : Fin 12) (s : State) : (setXi x s).tx = s.tx := rfl
@[simp] theorem setXi_tgt (x : Fin 12) (s : State) : (setXi x s).tgt = s.tgt := rfl
@[simp] theorem setXi_resp (x : Fin 12) (s : State) : (setXi x s).resp = s.resp := rfl
@[simp] theorem setXi_respv (x : Fin 12) (s : State) : (setXi x s).respv = s.respv := rfl
@[simp] theorem setXi_mask (x : Fin 12) (s : State) : (setXi x s).mask = s.mask := rfl
@[simp] theorem setXi_hp (x : Fin 12) (s : State) : (setXi x s).hp = s.hp := rfl
@[simp] theorem setXi_hpv (x : Fin 12) (s : State) : (setXi x s).hpv = s.hpv := rfl
@[simp] theorem setXi_decr0 (x : Fin 12) (s : State) : (setXi x s).decr0 = s.decr0 := rfl
@[simp] theorem setXi_decr1 (x : Fin 12) (s : State) : (setXi x s).decr1 = s.decr1 := rfl
@[simp] theorem setXi_stat (x : Fin 12) (s : State) : (setXi x s).stat = s.stat := rfl
@[simp] theorem setXi_ph (x : Fin 12) (s : State) : (setXi x s).ph = s.ph := rfl
@[simp] theorem setXi_nmsg (x : Fin 12) (s : State) : (setXi x s).nmsg = s.nmsg := rfl
@[simp] theorem setXi_mi (x : Fin 12) (s : State) : (setXi x s).mi = s.mi := rfl
@[simp] theorem setXi_xi (x : Fin 12) (s : State) : (setXi x s).xi = x := rfl
@[simp] theorem setXi_hist (x : Fin 12) (s : State) : (setXi x s).hist = s.hist := rfl
@[simp] theorem setXi_reqs (x : Fin 12) (s : State) : (setXi x s).reqs = s.reqs := rfl
@[simp] theorem setXi_rst (x : Fin 12) (s : State) : (setXi x s).rst = s.rst := rfl
@[simp] theorem setXi_peer (x : Fin 12) (s : State) : (setXi x s).peer = s.peer := rfl
@[simp] theorem setXi_xcount (x : Fin 12) (s : State) : (setXi x s).xcount = s.xcount := rfl

/-! ### `clearError` -/

@[simp] theorem clearError_cfg (s : State) : (clearError s).cfg = s.cfg := rfl
@[simp] theorem clearError_opr (s : State) : (clearError s).opr = s.opr := rfl
@[simp] theorem clearError_arg (s : State) : (clearError s).arg = s.arg := rfl
@[simp] theorem clearError_tx (s : State) : (clearError s).tx = s.tx := rfl
@[simp] theorem clearError_tgt (s : State) : (clearError s).tgt = s.tgt := rfl
@[simp] theorem clearError_resp (s : State) : (clearError s).resp = s.resp := rfl
@[simp] theorem clearError_respv (s : State) : (clearError s).respv = s.respv := rfl
@[simp] theorem clearError_mask (s : State) : (clearError s).mask = s.mask := rfl
@[simp] theorem clearError_hp (s : State) : (clearError s).hp = s.hp := rfl
@[simp] theorem clearError_hpv (s : State) : (clearError s).hpv = s.hpv := rfl
@[simp] theorem clearError_decr0 (s : State) : (clearError s).decr0 = s.decr0 := rfl
@[simp] theorem clearError_decr1 (s : State) : (clearError s).decr1 = s.decr1 := rfl
@[simp] theorem clearError_stat (s : State) : (clearError s).stat = statCleared := rfl
@[simp] theorem clearError_ph (s : State) : (clearError s).ph = s.ph := rfl
@[simp] theorem clearError_nmsg (s : State) : (clearError s).nmsg = s.nmsg := rfl
@[simp] theorem clearError_mi (s : State) : (clearError s).mi = s.mi := rfl
@[simp] theorem clearError_xi (s : State) : (clearError s).xi = s.xi := rfl
@[simp] theorem clearError_hist (s : State) : (clearError s).hist = s.hist := rfl
@[simp] theorem clearError_reqs (s : State) : (clearError s).reqs = s.reqs := rfl
@[simp] theorem clearError_rst (s : State) : (clearError s).rst = s.rst := rfl
@[simp] theorem clearError_peer (s : State) : (clearError s).peer = s.peer := rfl
@[simp] theorem clearError_xcount (s : State) : (clearError s).xcount = s.xcount := rfl

/-! ### `latch` -/

@[simp] theorem latch_cfg (code : BitVec 4) (ops : List Word) (s : State) : (latch code ops s).cfg = s.cfg := rfl
@[simp] theorem latch_opr (code : BitVec 4) (ops : List Word) (s : State) : (latch code ops s).opr = code := rfl
@[simp] theorem latch_arg (code : BitVec 4) (ops : List Word) (s : State) : (latch code ops s).arg = latchArgs s.arg ops := rfl
@[simp] theorem latch_tx (code : BitVec 4) (ops : List Word) (s : State) : (latch code ops s).tx = s.tx := rfl
@[simp] theorem latch_tgt (code : BitVec 4) (ops : List Word) (s : State) : (latch code ops s).tgt = s.tgt := rfl
@[simp] theorem latch_resp (code : BitVec 4) (ops : List Word) (s : State) : (latch code ops s).resp = s.resp := rfl
@[simp] theorem latch_respv (code : BitVec 4) (ops : List Word) (s : State) : (latch code ops s).respv = s.respv := rfl
@[simp] theorem latch_mask (code : BitVec 4) (ops : List Word) (s : State) : (latch code ops s).mask = s.mask := rfl
@[simp] theorem latch_hp (code : BitVec 4) (ops : List Word) (s : State) : (latch code ops s).hp = s.hp := rfl
@[simp] theorem latch_hpv (code : BitVec 4) (ops : List Word) (s : State) : (latch code ops s).hpv = s.hpv := rfl
@[simp] theorem latch_decr0 (code : BitVec 4) (ops : List Word) (s : State) : (latch code ops s).decr0 = s.decr0 := rfl
@[simp] theorem latch_decr1 (code : BitVec 4) (ops : List Word) (s : State) : (latch code ops s).decr1 = s.decr1 := rfl
@[simp] theorem latch_stat (code : BitVec 4) (ops : List Word) (s : State) : (latch code ops s).stat = s.stat := rfl
@[simp] theorem latch_ph (code : BitVec 4) (ops : List Word) (s : State) : (latch code ops s).ph = s.ph := rfl
@[simp] theorem latch_nmsg (code : BitVec 4) (ops : List Word) (s : State) : (latch code ops s).nmsg = s.nmsg := rfl
@[simp] theorem latch_mi (code : BitVec 4) (ops : List Word) (s : State) : (latch code ops s).mi = s.mi := rfl
@[simp] theorem latch_xi (code : BitVec 4) (ops : List Word) (s : State) : (latch code ops s).xi = s.xi := rfl
@[simp] theorem latch_hist (code : BitVec 4) (ops : List Word) (s : State) : (latch code ops s).hist = s.hist := rfl
@[simp] theorem latch_reqs (code : BitVec 4) (ops : List Word) (s : State) : (latch code ops s).reqs = s.reqs := rfl
@[simp] theorem latch_rst (code : BitVec 4) (ops : List Word) (s : State) : (latch code ops s).rst = s.rst := rfl
@[simp] theorem latch_peer (code : BitVec 4) (ops : List Word) (s : State) : (latch code ops s).peer = s.peer := rfl
@[simp] theorem latch_xcount (code : BitVec 4) (ops : List Word) (s : State) : (latch code ops s).xcount = s.xcount := rfl

/-! ### `frameMessage` -/

@[simp] theorem frameMessage_cfg (t : Controller) (m : Msg) (s : State) : (frameMessage t m s).cfg = s.cfg := rfl
@[simp] theorem frameMessage_opr (t : Controller) (m : Msg) (s : State) : (frameMessage t m s).opr = s.opr := rfl
@[simp] theorem frameMessage_arg (t : Controller) (m : Msg) (s : State) : (frameMessage t m s).arg = s.arg := rfl
@[simp] theorem frameMessage_tx (t : Controller) (m : Msg) (s : State) : (frameMessage t m s).tx = messageWords s.cfg t m.cw m.d := rfl
@[simp] theorem frameMessage_tgt (t : Controller) (m : Msg) (s : State) : (frameMessage t m s).tgt = some t := rfl
@[simp] theorem frameMessage_resp (t : Controller) (m : Msg) (s : State) : (frameMessage t m s).resp = s.resp := rfl
@[simp] theorem frameMessage_respv (t : Controller) (m : Msg) (s : State) : (frameMessage t m s).respv = s.respv := rfl
@[simp] theorem frameMessage_mask (t : Controller) (m : Msg) (s : State) : (frameMessage t m s).mask = s.mask := rfl
@[simp] theorem frameMessage_hp (t : Controller) (m : Msg) (s : State) : (frameMessage t m s).hp = s.hp := rfl
@[simp] theorem frameMessage_hpv (t : Controller) (m : Msg) (s : State) : (frameMessage t m s).hpv = s.hpv := rfl
@[simp] theorem frameMessage_decr0 (t : Controller) (m : Msg) (s : State) : (frameMessage t m s).decr0 = s.decr0 := rfl
@[simp] theorem frameMessage_decr1 (t : Controller) (m : Msg) (s : State) : (frameMessage t m s).decr1 = s.decr1 := rfl
@[simp] theorem frameMessage_stat (t : Controller) (m : Msg) (s : State) : (frameMessage t m s).stat = s.stat := rfl
@[simp] theorem frameMessage_ph (t : Controller) (m : Msg) (s : State) : (frameMessage t m s).ph = (if m.pre.isSome then .settle else .xchg) := rfl
@[simp] theorem frameMessage_nmsg (t : Controller) (m : Msg) (s : State) : (frameMessage t m s).nmsg = s.nmsg := rfl
@[simp] theorem frameMessage_mi (t : Controller) (m : Msg) (s : State) : (frameMessage t m s).mi = s.mi := rfl
@[simp] theorem frameMessage_xi (t : Controller) (m : Msg) (s : State) : (frameMessage t m s).xi = 0 := rfl
@[simp] theorem frameMessage_hist (t : Controller) (m : Msg) (s : State) : (frameMessage t m s).hist = s.hist := rfl
@[simp] theorem frameMessage_reqs (t : Controller) (m : Msg) (s : State) : (frameMessage t m s).reqs = s.reqs := rfl
@[simp] theorem frameMessage_rst (t : Controller) (m : Msg) (s : State) : (frameMessage t m s).rst = s.rst := rfl
@[simp] theorem frameMessage_peer (t : Controller) (m : Msg) (s : State) : (frameMessage t m s).peer = s.peer := rfl
@[simp] theorem frameMessage_xcount (t : Controller) (m : Msg) (s : State) : (frameMessage t m s).xcount = s.xcount := rfl

/-! ### `beginLink` -/

@[simp] theorem beginLink_cfg (code : BitVec 4) (ops : List Word) (s : State) : (beginLink code ops s).cfg = s.cfg := rfl
@[simp] theorem beginLink_opr (code : BitVec 4) (ops : List Word) (s : State) : (beginLink code ops s).opr = code := rfl
@[simp] theorem beginLink_arg (code : BitVec 4) (ops : List Word) (s : State) : (beginLink code ops s).arg = latchArgs s.arg ops := rfl
@[simp] theorem beginLink_tx (code : BitVec 4) (ops : List Word) (s : State) : (beginLink code ops s).tx = s.tx := rfl
@[simp] theorem beginLink_tgt (code : BitVec 4) (ops : List Word) (s : State) : (beginLink code ops s).tgt = s.tgt := rfl
@[simp] theorem beginLink_resp (code : BitVec 4) (ops : List Word) (s : State) : (beginLink code ops s).resp = s.resp := rfl
@[simp] theorem beginLink_respv (code : BitVec 4) (ops : List Word) (s : State) : (beginLink code ops s).respv = Vector.replicate 4 false := rfl
@[simp] theorem beginLink_mask (code : BitVec 4) (ops : List Word) (s : State) : (beginLink code ops s).mask = s.mask := rfl
@[simp] theorem beginLink_hp (code : BitVec 4) (ops : List Word) (s : State) : (beginLink code ops s).hp = s.hp := rfl
@[simp] theorem beginLink_hpv (code : BitVec 4) (ops : List Word) (s : State) : (beginLink code ops s).hpv = (if isHpcap code then false else s.hpv) := rfl
@[simp] theorem beginLink_decr0 (code : BitVec 4) (ops : List Word) (s : State) : (beginLink code ops s).decr0 = s.decr0 := rfl
@[simp] theorem beginLink_decr1 (code : BitVec 4) (ops : List Word) (s : State) : (beginLink code ops s).decr1 = s.decr1 := rfl
@[simp] theorem beginLink_stat (code : BitVec 4) (ops : List Word) (s : State) : (beginLink code ops s).stat = statRunning := rfl
@[simp] theorem beginLink_ph (code : BitVec 4) (ops : List Word) (s : State) : (beginLink code ops s).ph = s.ph := rfl
@[simp] theorem beginLink_nmsg (code : BitVec 4) (ops : List Word) (s : State) : (beginLink code ops s).nmsg = messageCount (latch code ops (clearError s)) := rfl
@[simp] theorem beginLink_mi (code : BitVec 4) (ops : List Word) (s : State) : (beginLink code ops s).mi = 0 := rfl
@[simp] theorem beginLink_xi (code : BitVec 4) (ops : List Word) (s : State) : (beginLink code ops s).xi = s.xi := rfl
@[simp] theorem beginLink_hist (code : BitVec 4) (ops : List Word) (s : State) : (beginLink code ops s).hist = s.hist := rfl
@[simp] theorem beginLink_reqs (code : BitVec 4) (ops : List Word) (s : State) : (beginLink code ops s).reqs = s.reqs := rfl
@[simp] theorem beginLink_rst (code : BitVec 4) (ops : List Word) (s : State) : (beginLink code ops s).rst = s.rst := rfl
@[simp] theorem beginLink_peer (code : BitVec 4) (ops : List Word) (s : State) : (beginLink code ops s).peer = s.peer := rfl
@[simp] theorem beginLink_xcount (code : BitVec 4) (ops : List Word) (s : State) : (beginLink code ops s).xcount = s.xcount := rfl

/-! ### `recordExchange` -/

@[simp] theorem recordExchange_cfg (w : Word) (a : LinkAnswer) (s : State) : (recordExchange w a s).cfg = s.cfg := rfl
@[simp] theorem recordExchange_opr (w : Word) (a : LinkAnswer) (s : State) : (recordExchange w a s).opr = s.opr := rfl
@[simp] theorem recordExchange_arg (w : Word) (a : LinkAnswer) (s : State) : (recordExchange w a s).arg = s.arg := rfl
@[simp] theorem recordExchange_tx (w : Word) (a : LinkAnswer) (s : State) : (recordExchange w a s).tx = s.tx := rfl
@[simp] theorem recordExchange_tgt (w : Word) (a : LinkAnswer) (s : State) : (recordExchange w a s).tgt = s.tgt := rfl
@[simp] theorem recordExchange_resp (w : Word) (a : LinkAnswer) (s : State) : (recordExchange w a s).resp = s.resp := rfl
@[simp] theorem recordExchange_respv (w : Word) (a : LinkAnswer) (s : State) : (recordExchange w a s).respv = s.respv := rfl
@[simp] theorem recordExchange_mask (w : Word) (a : LinkAnswer) (s : State) : (recordExchange w a s).mask = s.mask := rfl
@[simp] theorem recordExchange_hp (w : Word) (a : LinkAnswer) (s : State) : (recordExchange w a s).hp = s.hp := rfl
@[simp] theorem recordExchange_hpv (w : Word) (a : LinkAnswer) (s : State) : (recordExchange w a s).hpv = s.hpv := rfl
@[simp] theorem recordExchange_decr0 (w : Word) (a : LinkAnswer) (s : State) : (recordExchange w a s).decr0 = s.decr0 := rfl
@[simp] theorem recordExchange_decr1 (w : Word) (a : LinkAnswer) (s : State) : (recordExchange w a s).decr1 = s.decr1 := rfl
@[simp] theorem recordExchange_stat (w : Word) (a : LinkAnswer) (s : State) : (recordExchange w a s).stat = s.stat := rfl
@[simp] theorem recordExchange_ph (w : Word) (a : LinkAnswer) (s : State) : (recordExchange w a s).ph = s.ph := rfl
@[simp] theorem recordExchange_nmsg (w : Word) (a : LinkAnswer) (s : State) : (recordExchange w a s).nmsg = s.nmsg := rfl
@[simp] theorem recordExchange_mi (w : Word) (a : LinkAnswer) (s : State) : (recordExchange w a s).mi = s.mi := rfl
@[simp] theorem recordExchange_xi (w : Word) (a : LinkAnswer) (s : State) : (recordExchange w a s).xi = s.xi := rfl
@[simp] theorem recordExchange_hist (w : Word) (a : LinkAnswer) (s : State) : (recordExchange w a s).hist = s.hist ++ [exchangeEvent w a] := rfl
@[simp] theorem recordExchange_reqs (w : Word) (a : LinkAnswer) (s : State) : (recordExchange w a s).reqs = s.reqs := rfl
@[simp] theorem recordExchange_rst (w : Word) (a : LinkAnswer) (s : State) : (recordExchange w a s).rst = s.rst := rfl
@[simp] theorem recordExchange_peer (w : Word) (a : LinkAnswer) (s : State) : (recordExchange w a s).peer = peerAfter s.peer w := rfl
@[simp] theorem recordExchange_xcount (w : Word) (a : LinkAnswer) (s : State) : (recordExchange w a s).xcount = s.xcount + 1 := rfl

/-! ### `recordSettle` -/

@[simp] theorem recordSettle_cfg (t : Nat) (s : State) : (recordSettle t s).cfg = s.cfg := rfl
@[simp] theorem recordSettle_opr (t : Nat) (s : State) : (recordSettle t s).opr = s.opr := rfl
@[simp] theorem recordSettle_arg (t : Nat) (s : State) : (recordSettle t s).arg = s.arg := rfl
@[simp] theorem recordSettle_tx (t : Nat) (s : State) : (recordSettle t s).tx = s.tx := rfl
@[simp] theorem recordSettle_tgt (t : Nat) (s : State) : (recordSettle t s).tgt = s.tgt := rfl
@[simp] theorem recordSettle_resp (t : Nat) (s : State) : (recordSettle t s).resp = s.resp := rfl
@[simp] theorem recordSettle_respv (t : Nat) (s : State) : (recordSettle t s).respv = s.respv := rfl
@[simp] theorem recordSettle_mask (t : Nat) (s : State) : (recordSettle t s).mask = s.mask := rfl
@[simp] theorem recordSettle_hp (t : Nat) (s : State) : (recordSettle t s).hp = s.hp := rfl
@[simp] theorem recordSettle_hpv (t : Nat) (s : State) : (recordSettle t s).hpv = s.hpv := rfl
@[simp] theorem recordSettle_decr0 (t : Nat) (s : State) : (recordSettle t s).decr0 = s.decr0 := rfl
@[simp] theorem recordSettle_decr1 (t : Nat) (s : State) : (recordSettle t s).decr1 = s.decr1 := rfl
@[simp] theorem recordSettle_stat (t : Nat) (s : State) : (recordSettle t s).stat = s.stat := rfl
@[simp] theorem recordSettle_ph (t : Nat) (s : State) : (recordSettle t s).ph = s.ph := rfl
@[simp] theorem recordSettle_nmsg (t : Nat) (s : State) : (recordSettle t s).nmsg = s.nmsg := rfl
@[simp] theorem recordSettle_mi (t : Nat) (s : State) : (recordSettle t s).mi = s.mi := rfl
@[simp] theorem recordSettle_xi (t : Nat) (s : State) : (recordSettle t s).xi = s.xi := rfl
@[simp] theorem recordSettle_hist (t : Nat) (s : State) : (recordSettle t s).hist = s.hist ++ [.settle t] := rfl
@[simp] theorem recordSettle_reqs (t : Nat) (s : State) : (recordSettle t s).reqs = s.reqs := rfl
@[simp] theorem recordSettle_rst (t : Nat) (s : State) : (recordSettle t s).rst = s.rst := rfl
@[simp] theorem recordSettle_peer (t : Nat) (s : State) : (recordSettle t s).peer = s.peer := rfl
@[simp] theorem recordSettle_xcount (t : Nat) (s : State) : (recordSettle t s).xcount = s.xcount := rfl

/-! ### `writeResp` -/

@[simp] theorem writeResp_cfg (m : Fin 4) (p : Fin 11) (r : Word) (s : State) : (writeResp m p r s).cfg = s.cfg := rfl
@[simp] theorem writeResp_opr (m : Fin 4) (p : Fin 11) (r : Word) (s : State) : (writeResp m p r s).opr = s.opr := rfl
@[simp] theorem writeResp_arg (m : Fin 4) (p : Fin 11) (r : Word) (s : State) : (writeResp m p r s).arg = s.arg := rfl
@[simp] theorem writeResp_tx (m : Fin 4) (p : Fin 11) (r : Word) (s : State) : (writeResp m p r s).tx = s.tx := rfl
@[simp] theorem writeResp_tgt (m : Fin 4) (p : Fin 11) (r : Word) (s : State) : (writeResp m p r s).tgt = s.tgt := rfl
@[simp] theorem writeResp_resp (m : Fin 4) (p : Fin 11) (r : Word) (s : State) : (writeResp m p r s).resp = s.resp.set m.val (s.resp[m].set p.val r p.isLt) m.isLt := rfl
@[simp] theorem writeResp_respv (m : Fin 4) (p : Fin 11) (r : Word) (s : State) : (writeResp m p r s).respv = s.respv := rfl
@[simp] theorem writeResp_mask (m : Fin 4) (p : Fin 11) (r : Word) (s : State) : (writeResp m p r s).mask = s.mask := rfl
@[simp] theorem writeResp_hp (m : Fin 4) (p : Fin 11) (r : Word) (s : State) : (writeResp m p r s).hp = s.hp := rfl
@[simp] theorem writeResp_hpv (m : Fin 4) (p : Fin 11) (r : Word) (s : State) : (writeResp m p r s).hpv = s.hpv := rfl
@[simp] theorem writeResp_decr0 (m : Fin 4) (p : Fin 11) (r : Word) (s : State) : (writeResp m p r s).decr0 = s.decr0 := rfl
@[simp] theorem writeResp_decr1 (m : Fin 4) (p : Fin 11) (r : Word) (s : State) : (writeResp m p r s).decr1 = s.decr1 := rfl
@[simp] theorem writeResp_stat (m : Fin 4) (p : Fin 11) (r : Word) (s : State) : (writeResp m p r s).stat = s.stat := rfl
@[simp] theorem writeResp_ph (m : Fin 4) (p : Fin 11) (r : Word) (s : State) : (writeResp m p r s).ph = s.ph := rfl
@[simp] theorem writeResp_nmsg (m : Fin 4) (p : Fin 11) (r : Word) (s : State) : (writeResp m p r s).nmsg = s.nmsg := rfl
@[simp] theorem writeResp_mi (m : Fin 4) (p : Fin 11) (r : Word) (s : State) : (writeResp m p r s).mi = s.mi := rfl
@[simp] theorem writeResp_xi (m : Fin 4) (p : Fin 11) (r : Word) (s : State) : (writeResp m p r s).xi = s.xi := rfl
@[simp] theorem writeResp_hist (m : Fin 4) (p : Fin 11) (r : Word) (s : State) : (writeResp m p r s).hist = s.hist := rfl
@[simp] theorem writeResp_reqs (m : Fin 4) (p : Fin 11) (r : Word) (s : State) : (writeResp m p r s).reqs = s.reqs := rfl
@[simp] theorem writeResp_rst (m : Fin 4) (p : Fin 11) (r : Word) (s : State) : (writeResp m p r s).rst = s.rst := rfl
@[simp] theorem writeResp_peer (m : Fin 4) (p : Fin 11) (r : Word) (s : State) : (writeResp m p r s).peer = s.peer := rfl
@[simp] theorem writeResp_xcount (m : Fin 4) (p : Fin 11) (r : Word) (s : State) : (writeResp m p r s).xcount = s.xcount := rfl

/-! ### `markValid` -/

@[simp] theorem markValid_cfg (m : Fin 4) (s : State) : (markValid m s).cfg = s.cfg := rfl
@[simp] theorem markValid_opr (m : Fin 4) (s : State) : (markValid m s).opr = s.opr := rfl
@[simp] theorem markValid_arg (m : Fin 4) (s : State) : (markValid m s).arg = s.arg := rfl
@[simp] theorem markValid_tx (m : Fin 4) (s : State) : (markValid m s).tx = s.tx := rfl
@[simp] theorem markValid_tgt (m : Fin 4) (s : State) : (markValid m s).tgt = s.tgt := rfl
@[simp] theorem markValid_resp (m : Fin 4) (s : State) : (markValid m s).resp = s.resp := rfl
@[simp] theorem markValid_respv (m : Fin 4) (s : State) : (markValid m s).respv = s.respv.set m.val true m.isLt := rfl
@[simp] theorem markValid_mask (m : Fin 4) (s : State) : (markValid m s).mask = s.mask := rfl
@[simp] theorem markValid_hp (m : Fin 4) (s : State) : (markValid m s).hp = s.hp := rfl
@[simp] theorem markValid_hpv (m : Fin 4) (s : State) : (markValid m s).hpv = s.hpv := rfl
@[simp] theorem markValid_decr0 (m : Fin 4) (s : State) : (markValid m s).decr0 = s.decr0 := rfl
@[simp] theorem markValid_decr1 (m : Fin 4) (s : State) : (markValid m s).decr1 = s.decr1 := rfl
@[simp] theorem markValid_stat (m : Fin 4) (s : State) : (markValid m s).stat = s.stat := rfl
@[simp] theorem markValid_ph (m : Fin 4) (s : State) : (markValid m s).ph = s.ph := rfl
@[simp] theorem markValid_nmsg (m : Fin 4) (s : State) : (markValid m s).nmsg = s.nmsg := rfl
@[simp] theorem markValid_mi (m : Fin 4) (s : State) : (markValid m s).mi = s.mi := rfl
@[simp] theorem markValid_xi (m : Fin 4) (s : State) : (markValid m s).xi = s.xi := rfl
@[simp] theorem markValid_hist (m : Fin 4) (s : State) : (markValid m s).hist = s.hist := rfl
@[simp] theorem markValid_reqs (m : Fin 4) (s : State) : (markValid m s).reqs = s.reqs := rfl
@[simp] theorem markValid_rst (m : Fin 4) (s : State) : (markValid m s).rst = s.rst := rfl
@[simp] theorem markValid_peer (m : Fin 4) (s : State) : (markValid m s).peer = s.peer := rfl
@[simp] theorem markValid_xcount (m : Fin 4) (s : State) : (markValid m s).xcount = s.xcount := rfl

/-! ### `storeCapture` -/

@[simp] theorem storeCapture_cfg (s : State) : (storeCapture s).cfg = s.cfg := by unfold storeCapture; rfl
@[simp] theorem storeCapture_opr (s : State) : (storeCapture s).opr = s.opr := by unfold storeCapture; rfl
@[simp] theorem storeCapture_arg (s : State) : (storeCapture s).arg = s.arg := by unfold storeCapture; rfl
@[simp] theorem storeCapture_tx (s : State) : (storeCapture s).tx = s.tx := by unfold storeCapture; rfl
@[simp] theorem storeCapture_tgt (s : State) : (storeCapture s).tgt = s.tgt := by unfold storeCapture; rfl
@[simp] theorem storeCapture_resp (s : State) : (storeCapture s).resp = s.resp := by unfold storeCapture; rfl
@[simp] theorem storeCapture_respv (s : State) : (storeCapture s).respv = s.respv := by unfold storeCapture; rfl
@[simp] theorem storeCapture_mask (s : State) : (storeCapture s).mask = s.mask := by unfold storeCapture; rfl
@[simp] theorem storeCapture_hp (s : State) : (storeCapture s).hp = reorder (respData s.resp) := by unfold storeCapture; rfl
@[simp] theorem storeCapture_hpv (s : State) : (storeCapture s).hpv = true := by unfold storeCapture; rfl
@[simp] theorem storeCapture_decr0 (s : State) : (storeCapture s).decr0 = s.decr0 := by unfold storeCapture; rfl
@[simp] theorem storeCapture_decr1 (s : State) : (storeCapture s).decr1 = s.decr1 := by unfold storeCapture; rfl
@[simp] theorem storeCapture_stat (s : State) : (storeCapture s).stat = s.stat := by unfold storeCapture; rfl
@[simp] theorem storeCapture_ph (s : State) : (storeCapture s).ph = s.ph := by unfold storeCapture; rfl
@[simp] theorem storeCapture_nmsg (s : State) : (storeCapture s).nmsg = s.nmsg := by unfold storeCapture; rfl
@[simp] theorem storeCapture_mi (s : State) : (storeCapture s).mi = s.mi := by unfold storeCapture; rfl
@[simp] theorem storeCapture_xi (s : State) : (storeCapture s).xi = s.xi := by unfold storeCapture; rfl
@[simp] theorem storeCapture_hist (s : State) : (storeCapture s).hist = s.hist := by unfold storeCapture; rfl
@[simp] theorem storeCapture_reqs (s : State) : (storeCapture s).reqs = s.reqs := by unfold storeCapture; rfl
@[simp] theorem storeCapture_rst (s : State) : (storeCapture s).rst = s.rst := by unfold storeCapture; rfl
@[simp] theorem storeCapture_peer (s : State) : (storeCapture s).peer = s.peer := by unfold storeCapture; rfl
@[simp] theorem storeCapture_xcount (s : State) : (storeCapture s).xcount = s.xcount := by unfold storeCapture; rfl

/-! ### `takeRequest` -/

@[simp] theorem takeRequest_cfg (s : State) : (takeRequest s).cfg = s.cfg := rfl
@[simp] theorem takeRequest_opr (s : State) : (takeRequest s).opr = s.opr := rfl
@[simp] theorem takeRequest_arg (s : State) : (takeRequest s).arg = s.arg := rfl
@[simp] theorem takeRequest_tx (s : State) : (takeRequest s).tx = s.tx := rfl
@[simp] theorem takeRequest_tgt (s : State) : (takeRequest s).tgt = s.tgt := rfl
@[simp] theorem takeRequest_resp (s : State) : (takeRequest s).resp = s.resp := rfl
@[simp] theorem takeRequest_respv (s : State) : (takeRequest s).respv = s.respv := rfl
@[simp] theorem takeRequest_mask (s : State) : (takeRequest s).mask = s.mask := rfl
@[simp] theorem takeRequest_hp (s : State) : (takeRequest s).hp = s.hp := rfl
@[simp] theorem takeRequest_hpv (s : State) : (takeRequest s).hpv = s.hpv := rfl
@[simp] theorem takeRequest_decr0 (s : State) : (takeRequest s).decr0 = s.decr0 := rfl
@[simp] theorem takeRequest_decr1 (s : State) : (takeRequest s).decr1 = s.decr1 := rfl
@[simp] theorem takeRequest_stat (s : State) : (takeRequest s).stat = s.stat := rfl
@[simp] theorem takeRequest_ph (s : State) : (takeRequest s).ph = s.ph := rfl
@[simp] theorem takeRequest_nmsg (s : State) : (takeRequest s).nmsg = s.nmsg := rfl
@[simp] theorem takeRequest_mi (s : State) : (takeRequest s).mi = s.mi := rfl
@[simp] theorem takeRequest_xi (s : State) : (takeRequest s).xi = s.xi := rfl
@[simp] theorem takeRequest_hist (s : State) : (takeRequest s).hist = s.hist := rfl
@[simp] theorem takeRequest_reqs (s : State) : (takeRequest s).reqs = s.reqs.tail := rfl
@[simp] theorem takeRequest_rst (s : State) : (takeRequest s).rst = s.rst := rfl
@[simp] theorem takeRequest_peer (s : State) : (takeRequest s).peer = s.peer := rfl
@[simp] theorem takeRequest_xcount (s : State) : (takeRequest s).xcount = s.xcount := rfl

/-! ### `tickReset` -/

@[simp] theorem tickReset_cfg (s : State) : (tickReset s).cfg = s.cfg := rfl
@[simp] theorem tickReset_opr (s : State) : (tickReset s).opr = s.opr := rfl
@[simp] theorem tickReset_arg (s : State) : (tickReset s).arg = s.arg := rfl
@[simp] theorem tickReset_tx (s : State) : (tickReset s).tx = s.tx := rfl
@[simp] theorem tickReset_tgt (s : State) : (tickReset s).tgt = s.tgt := rfl
@[simp] theorem tickReset_resp (s : State) : (tickReset s).resp = s.resp := rfl
@[simp] theorem tickReset_respv (s : State) : (tickReset s).respv = s.respv := rfl
@[simp] theorem tickReset_mask (s : State) : (tickReset s).mask = s.mask := rfl
@[simp] theorem tickReset_hp (s : State) : (tickReset s).hp = s.hp := rfl
@[simp] theorem tickReset_hpv (s : State) : (tickReset s).hpv = s.hpv := rfl
@[simp] theorem tickReset_decr0 (s : State) : (tickReset s).decr0 = s.decr0 := rfl
@[simp] theorem tickReset_decr1 (s : State) : (tickReset s).decr1 = s.decr1 := rfl
@[simp] theorem tickReset_stat (s : State) : (tickReset s).stat = s.stat := rfl
@[simp] theorem tickReset_ph (s : State) : (tickReset s).ph = s.ph := rfl
@[simp] theorem tickReset_nmsg (s : State) : (tickReset s).nmsg = s.nmsg := rfl
@[simp] theorem tickReset_mi (s : State) : (tickReset s).mi = s.mi := rfl
@[simp] theorem tickReset_xi (s : State) : (tickReset s).xi = s.xi := rfl
@[simp] theorem tickReset_hist (s : State) : (tickReset s).hist = s.hist := rfl
@[simp] theorem tickReset_reqs (s : State) : (tickReset s).reqs = s.reqs := rfl
@[simp] theorem tickReset_rst (s : State) : (tickReset s).rst = s.rst.tail := rfl
@[simp] theorem tickReset_peer (s : State) : (tickReset s).peer = s.peer := rfl
@[simp] theorem tickReset_xcount (s : State) : (tickReset s).xcount = s.xcount := rfl

/-! ### `compensate` -/

@[simp] theorem compensate_cfg (r : Word) (s : State) : (compensate r s).cfg = s.cfg := by unfold compensate; split <;> rfl
@[simp] theorem compensate_opr (r : Word) (s : State) : (compensate r s).opr = s.opr := by unfold compensate; split <;> rfl
@[simp] theorem compensate_arg (r : Word) (s : State) : (compensate r s).arg = s.arg := by unfold compensate; split <;> rfl
@[simp] theorem compensate_tx (r : Word) (s : State) : (compensate r s).tx = s.tx := by unfold compensate; split <;> rfl
@[simp] theorem compensate_tgt (r : Word) (s : State) : (compensate r s).tgt = s.tgt := by unfold compensate; split <;> rfl
@[simp] theorem compensate_respv (r : Word) (s : State) : (compensate r s).respv = s.respv := by unfold compensate; split <;> rfl
@[simp] theorem compensate_mask (r : Word) (s : State) : (compensate r s).mask = s.mask := by unfold compensate; split <;> rfl
@[simp] theorem compensate_hp (r : Word) (s : State) : (compensate r s).hp = s.hp := by unfold compensate; split <;> rfl
@[simp] theorem compensate_hpv (r : Word) (s : State) : (compensate r s).hpv = s.hpv := by unfold compensate; split <;> rfl
@[simp] theorem compensate_decr0 (r : Word) (s : State) : (compensate r s).decr0 = s.decr0 := by unfold compensate; split <;> rfl
@[simp] theorem compensate_decr1 (r : Word) (s : State) : (compensate r s).decr1 = s.decr1 := by unfold compensate; split <;> rfl
@[simp] theorem compensate_stat (r : Word) (s : State) : (compensate r s).stat = s.stat := by unfold compensate; split <;> rfl
@[simp] theorem compensate_ph (r : Word) (s : State) : (compensate r s).ph = s.ph := by unfold compensate; split <;> rfl
@[simp] theorem compensate_nmsg (r : Word) (s : State) : (compensate r s).nmsg = s.nmsg := by unfold compensate; split <;> rfl
@[simp] theorem compensate_mi (r : Word) (s : State) : (compensate r s).mi = s.mi := by unfold compensate; split <;> rfl
@[simp] theorem compensate_xi (r : Word) (s : State) : (compensate r s).xi = s.xi := by unfold compensate; split <;> rfl
@[simp] theorem compensate_hist (r : Word) (s : State) : (compensate r s).hist = s.hist := by unfold compensate; split <;> rfl
@[simp] theorem compensate_reqs (r : Word) (s : State) : (compensate r s).reqs = s.reqs := by unfold compensate; split <;> rfl
@[simp] theorem compensate_rst (r : Word) (s : State) : (compensate r s).rst = s.rst := by unfold compensate; split <;> rfl
@[simp] theorem compensate_peer (r : Word) (s : State) : (compensate r s).peer = s.peer := by unfold compensate; split <;> rfl
@[simp] theorem compensate_xcount (r : Word) (s : State) : (compensate r s).xcount = s.xcount := by unfold compensate; split <;> rfl

/-! ### `completionEffect` -/

@[simp] theorem completionEffect_cfg (s : State) : (completionEffect s).cfg = s.cfg := by unfold completionEffect; split <;> simp
@[simp] theorem completionEffect_opr (s : State) : (completionEffect s).opr = s.opr := by unfold completionEffect; split <;> simp
@[simp] theorem completionEffect_arg (s : State) : (completionEffect s).arg = s.arg := by unfold completionEffect; split <;> simp
@[simp] theorem completionEffect_tx (s : State) : (completionEffect s).tx = s.tx := by unfold completionEffect; split <;> simp
@[simp] theorem completionEffect_tgt (s : State) : (completionEffect s).tgt = s.tgt := by unfold completionEffect; split <;> simp
@[simp] theorem completionEffect_resp (s : State) : (completionEffect s).resp = s.resp := by unfold completionEffect; split <;> simp
@[simp] theorem completionEffect_respv (s : State) : (completionEffect s).respv = s.respv := by unfold completionEffect; split <;> simp
@[simp] theorem completionEffect_mask (s : State) : (completionEffect s).mask = s.mask := by unfold completionEffect; split <;> simp
@[simp] theorem completionEffect_hp (s : State) : (completionEffect s).hp = (if isHpcap s.opr then reorder (respData s.resp) else s.hp) := by unfold completionEffect; split <;> simp
@[simp] theorem completionEffect_hpv (s : State) : (completionEffect s).hpv = (if isHpcap s.opr then true else s.hpv) := by unfold completionEffect; split <;> simp
@[simp] theorem completionEffect_decr0 (s : State) : (completionEffect s).decr0 = s.decr0 := by unfold completionEffect; split <;> simp
@[simp] theorem completionEffect_decr1 (s : State) : (completionEffect s).decr1 = s.decr1 := by unfold completionEffect; split <;> simp
@[simp] theorem completionEffect_stat (s : State) : (completionEffect s).stat = s.stat := by unfold completionEffect; split <;> simp
@[simp] theorem completionEffect_ph (s : State) : (completionEffect s).ph = s.ph := by unfold completionEffect; split <;> simp
@[simp] theorem completionEffect_nmsg (s : State) : (completionEffect s).nmsg = s.nmsg := by unfold completionEffect; split <;> simp
@[simp] theorem completionEffect_mi (s : State) : (completionEffect s).mi = s.mi := by unfold completionEffect; split <;> simp
@[simp] theorem completionEffect_xi (s : State) : (completionEffect s).xi = s.xi := by unfold completionEffect; split <;> simp
@[simp] theorem completionEffect_hist (s : State) : (completionEffect s).hist = s.hist := by unfold completionEffect; split <;> simp
@[simp] theorem completionEffect_reqs (s : State) : (completionEffect s).reqs = s.reqs := by unfold completionEffect; split <;> simp
@[simp] theorem completionEffect_rst (s : State) : (completionEffect s).rst = s.rst := by unfold completionEffect; split <;> simp
@[simp] theorem completionEffect_peer (s : State) : (completionEffect s).peer = s.peer := by unfold completionEffect; split <;> simp
@[simp] theorem completionEffect_xcount (s : State) : (completionEffect s).xcount = s.xcount := by unfold completionEffect; split <;> simp

/-! ### `echoCheck` -/

@[simp] theorem echoCheck_cfg (s : State) : (echoCheck s).cfg = s.cfg := by unfold echoCheck; split <;> rfl
@[simp] theorem echoCheck_opr (s : State) : (echoCheck s).opr = s.opr := by unfold echoCheck; split <;> rfl
@[simp] theorem echoCheck_arg (s : State) : (echoCheck s).arg = s.arg := by unfold echoCheck; split <;> rfl
@[simp] theorem echoCheck_tx (s : State) : (echoCheck s).tx = s.tx := by unfold echoCheck; split <;> rfl
@[simp] theorem echoCheck_tgt (s : State) : (echoCheck s).tgt = s.tgt := by unfold echoCheck; split <;> rfl
@[simp] theorem echoCheck_resp (s : State) : (echoCheck s).resp = s.resp := by unfold echoCheck; split <;> rfl
@[simp] theorem echoCheck_respv (s : State) : (echoCheck s).respv = s.respv := by unfold echoCheck; split <;> rfl
@[simp] theorem echoCheck_mask (s : State) : (echoCheck s).mask = s.mask := by unfold echoCheck; split <;> rfl
@[simp] theorem echoCheck_hp (s : State) : (echoCheck s).hp = s.hp := by unfold echoCheck; split <;> rfl
@[simp] theorem echoCheck_hpv (s : State) : (echoCheck s).hpv = s.hpv := by unfold echoCheck; split <;> rfl
@[simp] theorem echoCheck_decr0 (s : State) : (echoCheck s).decr0 = s.decr0 := by unfold echoCheck; split <;> rfl
@[simp] theorem echoCheck_decr1 (s : State) : (echoCheck s).decr1 = s.decr1 := by unfold echoCheck; split <;> rfl
@[simp] theorem echoCheck_stat (s : State) : (echoCheck s).stat = (if s.resp[s.mi][1] != s.tx[1] then setEcho true s.stat else s.stat) := by unfold echoCheck; split <;> rfl
@[simp] theorem echoCheck_ph (s : State) : (echoCheck s).ph = s.ph := by unfold echoCheck; split <;> rfl
@[simp] theorem echoCheck_nmsg (s : State) : (echoCheck s).nmsg = s.nmsg := by unfold echoCheck; split <;> rfl
@[simp] theorem echoCheck_mi (s : State) : (echoCheck s).mi = s.mi := by unfold echoCheck; split <;> rfl
@[simp] theorem echoCheck_xi (s : State) : (echoCheck s).xi = s.xi := by unfold echoCheck; split <;> rfl
@[simp] theorem echoCheck_hist (s : State) : (echoCheck s).hist = s.hist := by unfold echoCheck; split <;> rfl
@[simp] theorem echoCheck_reqs (s : State) : (echoCheck s).reqs = s.reqs := by unfold echoCheck; split <;> rfl
@[simp] theorem echoCheck_rst (s : State) : (echoCheck s).rst = s.rst := by unfold echoCheck; split <;> rfl
@[simp] theorem echoCheck_peer (s : State) : (echoCheck s).peer = s.peer := by unfold echoCheck; split <;> rfl
@[simp] theorem echoCheck_xcount (s : State) : (echoCheck s).xcount = s.xcount := by unfold echoCheck; split <;> rfl

/-! ### `finishRequest` -/

@[simp] theorem finishRequest_cfg (s : State) : (finishRequest s).cfg = s.cfg := by simp [finishRequest]
@[simp] theorem finishRequest_opr (s : State) : (finishRequest s).opr = s.opr := by simp [finishRequest]
@[simp] theorem finishRequest_arg (s : State) : (finishRequest s).arg = s.arg := by simp [finishRequest]
@[simp] theorem finishRequest_tx (s : State) : (finishRequest s).tx = s.tx := by simp [finishRequest]
@[simp] theorem finishRequest_tgt (s : State) : (finishRequest s).tgt = s.tgt := by simp [finishRequest]
@[simp] theorem finishRequest_resp (s : State) : (finishRequest s).resp = s.resp := by simp [finishRequest]
@[simp] theorem finishRequest_respv (s : State) : (finishRequest s).respv = s.respv := by simp [finishRequest]
@[simp] theorem finishRequest_mask (s : State) : (finishRequest s).mask = s.mask := by simp [finishRequest]
@[simp] theorem finishRequest_hp (s : State) : (finishRequest s).hp = (if isHpcap s.opr then reorder (respData s.resp) else s.hp) := by simp [finishRequest]
@[simp] theorem finishRequest_hpv (s : State) : (finishRequest s).hpv = (if isHpcap s.opr then true else s.hpv) := by simp [finishRequest]
@[simp] theorem finishRequest_decr0 (s : State) : (finishRequest s).decr0 = s.decr0 := by simp [finishRequest]
@[simp] theorem finishRequest_decr1 (s : State) : (finishRequest s).decr1 = s.decr1 := by simp [finishRequest]
@[simp] theorem finishRequest_stat (s : State) : (finishRequest s).stat = completeStat s.stat := by simp [finishRequest]
@[simp] theorem finishRequest_ph (s : State) : (finishRequest s).ph = .idle := by simp [finishRequest]
@[simp] theorem finishRequest_nmsg (s : State) : (finishRequest s).nmsg = s.nmsg := by simp [finishRequest]
@[simp] theorem finishRequest_mi (s : State) : (finishRequest s).mi = 0 := by simp [finishRequest]
@[simp] theorem finishRequest_xi (s : State) : (finishRequest s).xi = 0 := by simp [finishRequest]
@[simp] theorem finishRequest_hist (s : State) : (finishRequest s).hist = s.hist := by simp [finishRequest]
@[simp] theorem finishRequest_reqs (s : State) : (finishRequest s).reqs = s.reqs := by simp [finishRequest]
@[simp] theorem finishRequest_rst (s : State) : (finishRequest s).rst = s.rst := by simp [finishRequest]
@[simp] theorem finishRequest_peer (s : State) : (finishRequest s).peer = s.peer := by simp [finishRequest]
@[simp] theorem finishRequest_xcount (s : State) : (finishRequest s).xcount = s.xcount := by simp [finishRequest]

/-! ### `raiseError` -/

@[simp] theorem raiseError_cfg (e : EngineError) (s : State) : (raiseError e s).cfg = s.cfg := by cases e <;> rfl
@[simp] theorem raiseError_opr (e : EngineError) (s : State) : (raiseError e s).opr = s.opr := by cases e <;> rfl
@[simp] theorem raiseError_arg (e : EngineError) (s : State) : (raiseError e s).arg = s.arg := by cases e <;> rfl
@[simp] theorem raiseError_tx (e : EngineError) (s : State) : (raiseError e s).tx = s.tx := by cases e <;> rfl
@[simp] theorem raiseError_tgt (e : EngineError) (s : State) : (raiseError e s).tgt = s.tgt := by cases e <;> rfl
@[simp] theorem raiseError_resp (e : EngineError) (s : State) : (raiseError e s).resp = s.resp := by cases e <;> rfl
@[simp] theorem raiseError_respv (e : EngineError) (s : State) : (raiseError e s).respv = s.respv := by cases e <;> rfl
@[simp] theorem raiseError_mask (e : EngineError) (s : State) : (raiseError e s).mask = s.mask := by cases e <;> rfl
@[simp] theorem raiseError_hp (e : EngineError) (s : State) : (raiseError e s).hp = s.hp := by cases e <;> rfl
@[simp] theorem raiseError_hpv (e : EngineError) (s : State) : (raiseError e s).hpv = s.hpv := by cases e <;> rfl
@[simp] theorem raiseError_decr0 (e : EngineError) (s : State) : (raiseError e s).decr0 = s.decr0 := by cases e <;> rfl
@[simp] theorem raiseError_decr1 (e : EngineError) (s : State) : (raiseError e s).decr1 = s.decr1 := by cases e <;> rfl
@[simp] theorem raiseError_stat (e : EngineError) (s : State) : (raiseError e s).stat = errorStat e s.mi s.xi s.stat := by cases e <;> rfl
@[simp] theorem raiseError_nmsg (e : EngineError) (s : State) : (raiseError e s).nmsg = s.nmsg := by cases e <;> rfl
@[simp] theorem raiseError_hist (e : EngineError) (s : State) : (raiseError e s).hist = s.hist := by cases e <;> rfl
@[simp] theorem raiseError_reqs (e : EngineError) (s : State) : (raiseError e s).reqs = s.reqs := by cases e <;> rfl
@[simp] theorem raiseError_rst (e : EngineError) (s : State) : (raiseError e s).rst = s.rst := by cases e <;> rfl
@[simp] theorem raiseError_peer (e : EngineError) (s : State) : (raiseError e s).peer = s.peer := by cases e <;> rfl
@[simp] theorem raiseError_xcount (e : EngineError) (s : State) : (raiseError e s).xcount = s.xcount := by cases e <;> rfl

/-! ### `resetBlock` -/

@[simp] theorem resetBlock_cfg (s : State) : (resetBlock s).cfg = s.cfg := rfl
@[simp] theorem resetBlock_opr (s : State) : (resetBlock s).opr = State.reset.opr := rfl
@[simp] theorem resetBlock_arg (s : State) : (resetBlock s).arg = State.reset.arg := rfl
@[simp] theorem resetBlock_tx (s : State) : (resetBlock s).tx = State.reset.tx := rfl
@[simp] theorem resetBlock_tgt (s : State) : (resetBlock s).tgt = State.reset.tgt := rfl
@[simp] theorem resetBlock_resp (s : State) : (resetBlock s).resp = State.reset.resp := rfl
@[simp] theorem resetBlock_respv (s : State) : (resetBlock s).respv = State.reset.respv := rfl
@[simp] theorem resetBlock_mask (s : State) : (resetBlock s).mask = State.reset.mask := rfl
@[simp] theorem resetBlock_hp (s : State) : (resetBlock s).hp = State.reset.hp := rfl
@[simp] theorem resetBlock_hpv (s : State) : (resetBlock s).hpv = State.reset.hpv := rfl
@[simp] theorem resetBlock_decr0 (s : State) : (resetBlock s).decr0 = State.reset.decr0 := rfl
@[simp] theorem resetBlock_decr1 (s : State) : (resetBlock s).decr1 = State.reset.decr1 := rfl
@[simp] theorem resetBlock_stat (s : State) : (resetBlock s).stat = State.reset.stat := rfl
@[simp] theorem resetBlock_ph (s : State) : (resetBlock s).ph = State.reset.ph := rfl
@[simp] theorem resetBlock_nmsg (s : State) : (resetBlock s).nmsg = State.reset.nmsg := rfl
@[simp] theorem resetBlock_mi (s : State) : (resetBlock s).mi = State.reset.mi := rfl
@[simp] theorem resetBlock_xi (s : State) : (resetBlock s).xi = State.reset.xi := rfl
@[simp] theorem resetBlock_hist (s : State) : (resetBlock s).hist = State.reset.hist := rfl
@[simp] theorem resetBlock_reqs (s : State) : (resetBlock s).reqs = s.reqs := rfl
@[simp] theorem resetBlock_rst (s : State) : (resetBlock s).rst = s.rst := rfl
@[simp] theorem resetBlock_peer (s : State) : (resetBlock s).peer = s.peer := rfl
@[simp] theorem resetBlock_xcount (s : State) : (resetBlock s).xcount = s.xcount := rfl

/-- Two states with equal fields are equal. -/
theorem state_ext {s t : State} (h0 : s.cfg = t.cfg) (h1 : s.opr = t.opr) (h2 : s.arg = t.arg) (h3 : s.tx = t.tx) (h4 : s.tgt = t.tgt) (h5 : s.resp = t.resp) (h6 : s.respv = t.respv) (h7 : s.mask = t.mask) (h8 : s.hp = t.hp) (h9 : s.hpv = t.hpv) (h10 : s.decr0 = t.decr0) (h11 : s.decr1 = t.decr1) (h12 : s.stat = t.stat) (h13 : s.ph = t.ph) (h14 : s.nmsg = t.nmsg) (h15 : s.mi = t.mi) (h16 : s.xi = t.xi) (h17 : s.hist = t.hist) (h18 : s.reqs = t.reqs) (h19 : s.rst = t.rst) (h20 : s.peer = t.peer) (h21 : s.xcount = t.xcount) : s = t := by
  cases s; cases t; simp_all

end Sys2Proof.Machine
end

