-- ==== Sys2Proof/Laws/Ops.lean ====
section
/-! SUPPORT. What each shared operation can do, said once. -/

namespace Sys2Proof.Machine

/-! ### The latch -/

theorem latchArgs_nil (arg : Vector Word 9) : latchArgs arg [] = arg := by
  apply Vector.ext; intro i hi; simp [latchArgs]

theorem latchArgs_one (arg : Vector Word 9) (a : Word) : latchArgs arg [a] = arg.set 0 a := by
  apply Vector.ext; intro i hi
  rcases i with _ | i <;> simp [latchArgs]

theorem latchArgs_two (arg : Vector Word 9) (a b : Word) : latchArgs arg [a, b] = (arg.set 0 a).set 1 b := by
  apply Vector.ext; intro i hi
  rcases i with _ | _ | i <;> simp [latchArgs]

theorem latchArgs_three (arg : Vector Word 9) (a b c : Word) :
    latchArgs arg [a, b, c] = ((arg.set 0 a).set 1 b).set 2 c := by
  apply Vector.ext; intro i hi
  rcases i with _ | _ | _ | i <;> simp [latchArgs]

theorem latchArgs_four (arg : Vector Word 9) (a b c d : Word) :
    latchArgs arg [a, b, c, d] = (((arg.set 0 a).set 1 b).set 2 c).set 3 d := by
  apply Vector.ext; intro i hi
  rcases i with _ | _ | _ | _ | i <;> simp [latchArgs]

/-- The latch after `XFER`: the command word and the payload (R21, R85). -/
theorem latchArgs_xfer (arg : Vector Word 9) (a : Word) (d : Payload) :
    latchArgs arg (a :: d.toList) = #v[a, d.d1, d.d2, d.d3, d.d4, d.d5, d.d6, d.d7, d.d8] := by
  apply Vector.ext; intro i hi
  have : i = 0 ∨ i = 1 ∨ i = 2 ∨ i = 3 ∨ i = 4 ∨ i = 5 ∨ i = 6 ∨ i = 7 ∨ i = 8 := by omega
  rcases this with rfl | rfl | rfl | rfl | rfl | rfl | rfl | rfl | rfl <;> simp [latchArgs, Payload.toList]

/-! ### Acceptance -/

theorem accept_held {s : State} (h : s.ph ≠ .idle) (valid : Bool) (run : State → Result) : accept valid run s = .next s := by
  unfold accept; cases hp : s.ph <;> first | exact absurd hp h | rfl

theorem accept_valid {s : State} (h : s.ph = .idle) (run : State → Result) : accept true run s = run s := by
  simp only [accept, h, if_true]

/-- A request that is not valid changes `STAT` to 0x000E and nothing else (R100, R223). -/
theorem accept_invalid {s : State} (h : s.ph = .idle) (run : State → Result) :
    accept false run s = .next { s with stat := 0x000E#16 } := by
  unfold accept
  split
  · rfl
  all_goals rename_i hp; rw [h] at hp; cases hp

theorem acceptPure_held {s : State} (h : s.ph ≠ .idle) (valid : Bool) (code : BitVec 4) (ops : List Word)
    (e : State → State) : acceptPure valid code ops e s = .next s := accept_held h _ _

theorem acceptLink_held {s : State} (h : s.ph ≠ .idle) (valid : Bool) (code : BitVec 4) (ops : List Word) :
    acceptLink valid code ops s = .next s := accept_held h _ _

/-- The acceptance of a valid pure request. -/
theorem acceptPure_valid {s : State} (h : s.ph = .idle) (code : BitVec 4) (ops : List Word) (e : State → State) :
    acceptPure true code ops e s = .next { e (latch code ops (clearError s)) with stat := 0x0002#16 } := by
  unfold acceptPure; rw [accept_valid h]; rfl

/-- The acceptance of a valid link request. -/
theorem acceptLink_valid {s : State} (h : s.ph = .idle) (code : BitVec 4) (ops : List Word) :
    acceptLink true code ops s = startMessage 0 (beginLink code ops s) := by
  unfold acceptLink; rw [accept_valid h]

/-! ### The framer -/

theorem startMessage_eq {n : Nat} {s : State} {msg : Msg} {t : Controller} (hm : (msgs s)[n]? = some msg)
    (hr : routeOf s.cfg msg.cw = some t) : startMessage n s = .next (frameMessage t msg s) := by
  simp only [startMessage, hm, hr]

/-- `StartMessage` answers a next state only with a message of the list framed for the controller it routes to. -/
theorem startMessage_next {n : Nat} {s t : State} (h : startMessage n s = .next t) :
    ∃ msg u, (msgs s)[n]? = some msg ∧ routeOf s.cfg msg.cw = some u ∧ t = frameMessage u msg s := by
  unfold startMessage at h
  split at h
  · cases h
  · rename_i msg hm
    split at h
    · cases h
    · rename_i u hu
      cases h
      exact ⟨msg, u, hm, hu, rfl⟩

/-- The message list depends on `cfg`, `OPR`, `ARG` and `MASK` only (R101). -/
theorem msgs_congr {s t : State} (hc : t.cfg = s.cfg) (ho : t.opr = s.opr) (ha : t.arg = s.arg) (hm : t.mask = s.mask) :
    msgs t = msgs s := by
  simp only [msgs, hc, ho, ha, hm]

/-- No message list is longer than 4 (R6 `MAX_MSGS`). -/
theorem msgs_length_le (s : State) : (msgs s).length ≤ 4 := by
  unfold msgs msgsOf
  split <;> simp [xferMsgs, tmsendMsgs, hpcapMsgs, tacksetMsgs, schedsetMsgs, cntrstMsgs, synchsMsgs]

/-- `NMSG` at acceptance is the length of the message list (R100). -/
theorem messageCount_val (s : State) : (messageCount s).val = (msgs s).length := by
  have := msgs_length_le s
  simp only [messageCount]; omega

theorem msgs_beginLink (code : BitVec 4) (ops : List Word) (s : State) :
    msgs (beginLink code ops s) = msgsOf s.cfg code (latchArgs s.arg ops) s.mask := rfl

/-- The acceptance of a valid link request whose first message routes to a controller. -/
theorem acceptLink_started {s : State} (h : s.ph = .idle) {code : BitVec 4} {ops : List Word} {msg : Msg}
    {rest : List Msg} {t : Controller} (hm : msgsOf s.cfg code (latchArgs s.arg ops) s.mask = msg :: rest)
    (hr : routeOf s.cfg msg.cw = some t) :
    acceptLink true code ops s = .next (frameMessage t msg (beginLink code ops s)) := by
  rw [acceptLink_valid h]
  apply startMessage_eq
  · rw [msgs_beginLink, hm]; rfl
  · exact hr

/-- The acceptance of a valid link request, as the state it leaves (R100, R102). -/
theorem acceptLink_linkStarted {s : State} (h : s.ph = .idle) (code : BitVec 4) (ops : List Word) {msg : Msg}
    {rest : List Msg} {t : Controller} (hm : msgsOf s.cfg code (latchArgs s.arg ops) s.mask = msg :: rest)
    (hr : routeOf s.cfg msg.cw = some t) {n : Fin 5} (hn : (msg :: rest).length = n.val) :
    acceptLink true code ops s =
      .next { linkStarted s code (latchArgs s.arg ops) n t msg.cw msg.d msg.pre.isSome with
        hpv := if isHpcap code then false else s.hpv } := by
  rw [acceptLink_started h hm hr]
  congr 1
  apply state_ext <;> try (first | rfl | (simp [linkStarted]; done))
  apply Fin.ext
  rw [frameMessage_nmsg, beginLink_nmsg, messageCount_val]
  show (msgsOf s.cfg code (latchArgs s.arg ops) s.mask).length = n.val
  rw [hm, hn]

/-! ### The peer -/

/-- A scripted answer is the next one of the script. -/
theorem peerReply_script {s : State} {a : LinkAnswer} {l : List LinkAnswer} (h : s.peer = .oracle (a :: l)) (w : Word) :
    peerReply s w = a := by
  simp only [peerReply, h]

/-- The loopback peer answers the Word sent before (R65). -/
theorem peerReply_loopback {s : State} {v : Word} (h : s.peer = .loopback v) (w : Word) : peerReply s w = .ok v := by
  simp only [peerReply, h]

/-! ### The analog readbacks -/

theorem isAnalog_iff (k : Option CmdClass) :
    isAnalog k = decide (k ∈ [some CmdClass.hkVolt, some CmdClass.hkCurr, some CmdClass.hkEnv, some CmdClass.hkBrd]) := by
  rcases k with _ | k
  · rfl
  · cases k <;> rfl

end Sys2Proof.Machine
end

