-- ==== Sys2Proof/Laws/Engine.lean ====
section
/-! SUPPORT. What one step can do, said once: the kinds of an acceptance, the kinds of a step, and the step each kind is. -/

namespace Sys2Proof.Machine

/-! ### Acceptances -/

/-- What an instruction does when it answers a next state. -/
inductive Accepted (s : State) : State → Prop
  /-- The engine is running: the request is held (R257). -/
  | held (h : s.ph ≠ .idle) : Accepted s s
  /-- The request is not valid (R223). -/
  | refused (h : s.ph = .idle) : Accepted s { s with stat := 0x000E#16 }
  /-- `DEC` (R123). -/
  | decoded (h : s.ph = .idle) (cw : Word) :
      Accepted s { decEffect cw (latch 0x2#4 [cw] (clearError s)) with stat := 0x0002#16 }
  /-- `TMDEF`, `TMSGL`, `TMBLK` (R170, R172, R175). -/
  | built (h : s.ph = .idle) (code : BitVec 4) (ops : List Word) (m : Vector Word 32) :
      Accepted s { latch code ops (clearError s) with mask := m, stat := 0x0002#16 }
  /-- A link request (R100). -/
  | started (h : s.ph = .idle) (code : BitVec 4) (ops : List Word) (msg : Msg) (u : Controller)
      (hm : (msgs (beginLink code ops s))[0]? = some msg) (hr : routeOf s.cfg msg.cw = some u)
      (ha : s.cfg.wf = true → ∀ m ∈ msgs (beginLink code ops s), (routeOf s.cfg m.cw).isSome = true) :
      Accepted s (frameMessage u msg (beginLink code ops s))

theorem accepted_of_accept {s t : State} {valid : Bool} {run : State → Result}
    (hrun : s.ph = .idle → valid = true → run s = .next t → Accepted s t) (h : accept valid run s = .next t) :
    Accepted s t := by
  by_cases hp : s.ph = .idle
  · cases valid
    · rw [accept_invalid hp] at h; cases h; exact .refused hp
    · rw [accept_valid hp] at h; exact hrun hp rfl h
  · rw [accept_held hp] at h; cases h; exact .held hp

theorem accepted_of_link {s t : State} {valid : Bool} {code : BitVec 4} {ops : List Word}
    (ha : valid = true → s.cfg.wf = true → ∀ m ∈ msgs (beginLink code ops s), (routeOf s.cfg m.cw).isSome = true)
    (h : acceptLink valid code ops s = .next t) : Accepted s t := by
  refine accepted_of_accept (fun hp hv h => ?_) h
  obtain ⟨msg, u, hm, hr, rfl⟩ := startMessage_next h
  exact .started hp code ops msg u hm hr (ha hv)

theorem accepted_of_built {s t : State} {valid : Bool} {code : BitVec 4} {ops : List Word} {m : Vector Word 32}
    (h : acceptPure valid code ops (fun s => { s with mask := m }) s = .next t) : Accepted s t := by
  refine accepted_of_accept (fun hp _ h => ?_) h
  cases h
  exact .built hp code ops m

theorem accepted_of_dec {s t : State} {cw : Word} (h : execDec cw s = .next t) : Accepted s t := by
  unfold execDec acceptPure at h
  refine accepted_of_accept (fun hp _ h => ?_) h
  cases h
  exact .decoded hp cw

theorem accepted_of_xfer {s t : State} {cw : Word} {d : Payload} (h : acceptXfer cw d s = .next t) : Accepted s t := by
  refine accepted_of_link (fun hv _ m hm => ?_) h
  have hmsgs : msgs (beginLink 0x1#4 (cw :: d.toList) s) = xferMsgs s.cfg cw d := by
    rw [msgs_beginLink, latchArgs_xfer]; rfl
  rw [hmsgs, xferMsgs, List.mem_singleton] at hm
  subst hm
  exact hv

/-- The named command words of a request's messages route (R8 item 3). -/
theorem routes_isSome {c : Cfg} (h : c.wf = true) (k : CmdClass) : (routeOf c (c.op k)).isSome = true := by
  rw [routeOf_op h k]; rfl

/-- What an instruction does when it answers a next state. -/
theorem exec_accepted {i : Instr} {s t : State} (h : exec i s = .next t) : Accepted s t := by
  cases i with
  | dec cw => exact accepted_of_dec h
  | tmdef => exact accepted_of_built (m := defaultMask) h
  | tmsgl slot asic group => exact accepted_of_built (m := singleMask slot asic group) h
  | tmblk vlo vhi => exact accepted_of_built (m := bulkMask (bulkVector vlo vhi)) h
  | tmsend =>
    refine accepted_of_link (fun _ hw m hm => ?_) h
    have hm : m ∈ tmsendMsgs s.cfg s.mask := hm
    simp only [tmsendMsgs, List.mem_cons, List.not_mem_nil, or_false] at hm
    rcases hm with rfl | rfl | rfl | rfl <;> exact routes_isSome hw _
  | hpcap =>
    refine accepted_of_link (fun _ hw m hm => ?_) h
    have hm : m ∈ hpcapMsgs s.cfg := hm
    simp only [hpcapMsgs, List.mem_cons, List.not_mem_nil, or_false] at hm
    rcases hm with rfl | rfl | rfl | rfl <;> exact routes_isSome hw _
  | tackset ty mo =>
    refine accepted_of_link (fun _ hw m hm => ?_) h
    have hm : m ∈ tacksetMsgs s.cfg ty mo := hm
    simp only [tacksetMsgs, List.mem_cons, List.not_mem_nil, or_false] at hm
    subst hm; exact routes_isSome hw _
  | schedset t3 t2 t1 t0 =>
    refine accepted_of_link (fun _ hw m hm => ?_) h
    have hm : m ∈ schedsetMsgs s.cfg t3 t2 t1 t0 := hm
    simp only [schedsetMsgs, List.mem_cons, List.not_mem_nil, or_false] at hm
    subst hm; exact routes_isSome hw _
  | cntrst =>
    refine accepted_of_link (fun _ hw m hm => ?_) h
    have hm : m ∈ cntrstMsgs s.cfg := hm
    simp only [cntrstMsgs, List.mem_cons, List.not_mem_nil, or_false] at hm
    subst hm; exact routes_isSome hw _
  | synchs t3 t2 t1 t0 =>
    refine accepted_of_link (fun _ hw m hm => ?_) h
    have hm : m ∈ synchsMsgs s.cfg t3 t2 t1 t0 := hm
    simp only [synchsMsgs, List.mem_cons, List.not_mem_nil, or_false] at hm
    rcases hm with rfl | rfl | rfl | rfl <;> exact routes_isSome hw _
  | _ => exact accepted_of_xfer h

/-! ### Exchanges -/

/-- The state after an exchange that sent `w` and received `r` (R50, R104). -/
def exchanged (w r : Word) (s : State) : State := compensate r (recordExchange w (.ok r) s)

/-- The state after the last exchange of a message, with its response marked valid (R105). -/
def received (w r : Word) (s : State) : State := markValid s.mi (exchanged w r s)

theorem exchangeStep_fail {s : State} (h : peerReply s (outWord s) = .fail) :
    exchangeStep s = .next (raiseError .linkFailure (recordExchange (outWord s) .fail s)) := by
  simp only [exchangeStep, h, afterAnswer]

theorem exchangeStep_ok {s : State} {r : Word} (h : peerReply s (outWord s) = .ok r) :
    exchangeStep s = advance (exchanged (outWord s) r s) := by
  simp only [exchangeStep, h, afterAnswer, exchanged]

/-! ### Steps -/

/-- What one step of the machine does when it answers a next state. -/
inductive Stepped (s : State) : State → Prop
  /-- `RST` is asserted (R250). -/
  | reset (h : resetAsserted s = true) : Stepped s (resetBlock (tickReset s))
  /-- No request is presented (R239). -/
  | waited (h : resetAsserted s = false) (hp : s.ph = .idle) (hq : s.reqs = []) : Stepped s (tickReset s)
  /-- A reserved word 0 (R86). -/
  | reserved (h : resetAsserted s = false) (hp : s.ph = .idle) (q : List Word) (rest : List (List Word))
      (hq : s.reqs = q :: rest) (hd : decode s.cfg q = .error .reservedCode) :
      Stepped s (raiseError .invalidParameter (takeRequest (tickReset s)))
  /-- A request is accepted (R100). -/
  | accepted (h : resetAsserted s = false) (hp : s.ph = .idle) (q : List Word) (rest : List (List Word)) (i : Instr)
      (hq : s.reqs = q :: rest) (hd : decode s.cfg q = .ok i) (t : State)
      (he : exec i (takeRequest (tickReset s)) = .next t) : Stepped s t
  /-- A settle wait (R108). -/
  | settled (h : resetAsserted s = false) (hp : s.ph = .settle) (d : Nat) :
      Stepped s (setPh .xchg (recordSettle d (tickReset s)))
  /-- A failed exchange (R221). -/
  | failed (h : resetAsserted s = false) (hp : s.ph = .xchg) (w : Word) :
      Stepped s (raiseError .linkFailure (recordExchange w .fail (tickReset s)))
  /-- An exchange that is not the last of its message (R105). -/
  | stored (h : resetAsserted s = false) (hp : s.ph = .xchg) (w r : Word) (hx : s.xi.val < 11) :
      Stepped s (setXi ⟨s.xi.val + 1, by omega⟩ (exchanged w r (tickReset s)))
  /-- The last exchange of a message with a wrong marker (R222). -/
  | mismatched (h : resetAsserted s = false) (hp : s.ph = .xchg) (hx : s.xi = 11) (w r : Word) (sbad ebad : Bool)
      (hb : sbad = true ∨ ebad = true) :
      Stepped s (raiseError (.framingMismatch sbad ebad) (echoCheck (received w r (tickReset s))))
  /-- The last exchange of a message that another one follows (R107). -/
  | continued (h : resetAsserted s = false) (hp : s.ph = .xchg) (hx : s.xi = 11) (w r : Word) (msg : Msg) (u : Controller)
      (m : Fin 4) (he : m.val = s.mi.val + 1) (hn : m.val < s.nmsg.val) (hm : (msgs s)[m.val]? = some msg)
      (hr : routeOf s.cfg msg.cw = some u) :
      Stepped s (frameMessage u msg (setMi m (echoCheck (received w r (tickReset s)))))
  /-- The last exchange of a request (R107). -/
  | finished (h : resetAsserted s = false) (hp : s.ph = .xchg) (hx : s.xi = 11) (w r : Word)
      (hn : s.nmsg.val ≤ s.mi.val + 1) : Stepped s (finishRequest (echoCheck (received w r (tickReset s))))

@[simp] theorem exchanged_xi (w r : Word) (s : State) : (exchanged w r s).xi = s.xi := by simp [exchanged]
@[simp] theorem exchanged_mi (w r : Word) (s : State) : (exchanged w r s).mi = s.mi := by simp [exchanged]
@[simp] theorem exchanged_nmsg (w r : Word) (s : State) : (exchanged w r s).nmsg = s.nmsg := by simp [exchanged]
@[simp] theorem exchanged_tgt (w r : Word) (s : State) : (exchanged w r s).tgt = s.tgt := by simp [exchanged]
@[simp] theorem exchanged_cfg (w r : Word) (s : State) : (exchanged w r s).cfg = s.cfg := by simp [exchanged]
@[simp] theorem exchanged_stat (w r : Word) (s : State) : (exchanged w r s).stat = s.stat := by simp [exchanged]
@[simp] theorem exchanged_ph (w r : Word) (s : State) : (exchanged w r s).ph = s.ph := by simp [exchanged]
@[simp] theorem exchanged_opr (w r : Word) (s : State) : (exchanged w r s).opr = s.opr := by simp [exchanged]
@[simp] theorem exchanged_arg (w r : Word) (s : State) : (exchanged w r s).arg = s.arg := by simp [exchanged]
@[simp] theorem exchanged_tx (w r : Word) (s : State) : (exchanged w r s).tx = s.tx := by simp [exchanged]
@[simp] theorem exchanged_respv (w r : Word) (s : State) : (exchanged w r s).respv = s.respv := by simp [exchanged]
@[simp] theorem exchanged_mask (w r : Word) (s : State) : (exchanged w r s).mask = s.mask := by simp [exchanged]
@[simp] theorem exchanged_hp (w r : Word) (s : State) : (exchanged w r s).hp = s.hp := by simp [exchanged]
@[simp] theorem exchanged_hpv (w r : Word) (s : State) : (exchanged w r s).hpv = s.hpv := by simp [exchanged]
@[simp] theorem exchanged_decr0 (w r : Word) (s : State) : (exchanged w r s).decr0 = s.decr0 := by simp [exchanged]
@[simp] theorem exchanged_decr1 (w r : Word) (s : State) : (exchanged w r s).decr1 = s.decr1 := by simp [exchanged]
@[simp] theorem exchanged_reqs (w r : Word) (s : State) : (exchanged w r s).reqs = s.reqs := by simp [exchanged]
@[simp] theorem exchanged_rst (w r : Word) (s : State) : (exchanged w r s).rst = s.rst := by simp [exchanged]
@[simp] theorem exchanged_hist (w r : Word) (s : State) : (exchanged w r s).hist = s.hist ++ [.xchg w r] := by
  simp [exchanged, exchangeEvent]
@[simp] theorem exchanged_peer (w r : Word) (s : State) : (exchanged w r s).peer = peerAfter s.peer w := by simp [exchanged]
@[simp] theorem exchanged_xcount (w r : Word) (s : State) : (exchanged w r s).xcount = s.xcount + 1 := by simp [exchanged]

@[simp] theorem received_cfg (w r : Word) (s : State) : (received w r s).cfg = s.cfg := by simp [received]
@[simp] theorem received_opr (w r : Word) (s : State) : (received w r s).opr = s.opr := by simp [received]
@[simp] theorem received_arg (w r : Word) (s : State) : (received w r s).arg = s.arg := by simp [received]
@[simp] theorem received_tx (w r : Word) (s : State) : (received w r s).tx = s.tx := by simp [received]
@[simp] theorem received_tgt (w r : Word) (s : State) : (received w r s).tgt = s.tgt := by simp [received]
@[simp] theorem received_mask (w r : Word) (s : State) : (received w r s).mask = s.mask := by simp [received]
@[simp] theorem received_hp (w r : Word) (s : State) : (received w r s).hp = s.hp := by simp [received]
@[simp] theorem received_hpv (w r : Word) (s : State) : (received w r s).hpv = s.hpv := by simp [received]
@[simp] theorem received_decr0 (w r : Word) (s : State) : (received w r s).decr0 = s.decr0 := by simp [received]
@[simp] theorem received_decr1 (w r : Word) (s : State) : (received w r s).decr1 = s.decr1 := by simp [received]
@[simp] theorem received_stat (w r : Word) (s : State) : (received w r s).stat = s.stat := by simp [received]
@[simp] theorem received_ph (w r : Word) (s : State) : (received w r s).ph = s.ph := by simp [received]
@[simp] theorem received_nmsg (w r : Word) (s : State) : (received w r s).nmsg = s.nmsg := by simp [received]
@[simp] theorem received_mi (w r : Word) (s : State) : (received w r s).mi = s.mi := by simp [received]
@[simp] theorem received_xi (w r : Word) (s : State) : (received w r s).xi = s.xi := by simp [received]
@[simp] theorem received_reqs (w r : Word) (s : State) : (received w r s).reqs = s.reqs := by simp [received]
@[simp] theorem received_rst (w r : Word) (s : State) : (received w r s).rst = s.rst := by simp [received]
@[simp] theorem received_respv (w r : Word) (s : State) : (received w r s).respv = s.respv.set s.mi.val true := by
  simp [received]
@[simp] theorem received_resp (w r : Word) (s : State) : (received w r s).resp = (exchanged w r s).resp := rfl
@[simp] theorem received_hist (w r : Word) (s : State) : (received w r s).hist = s.hist ++ [.xchg w r] := by simp [received]
@[simp] theorem received_peer (w r : Word) (s : State) : (received w r s).peer = peerAfter s.peer w := by simp [received]
@[simp] theorem received_xcount (w r : Word) (s : State) : (received w r s).xcount = s.xcount + 1 := by simp [received]

/-- The end-of-message check and what follows it (R106, R107). -/
theorem endOfMessage_cases {s t : State} (h : endOfMessage s = .next t) :
    (∃ sbad ebad, (sbad = true ∨ ebad = true) ∧ t = raiseError (.framingMismatch sbad ebad) (echoCheck s)) ∨
    (∃ (m : Fin 4) (msg : Msg) (u : Controller), m.val = s.mi.val + 1 ∧ m.val < s.nmsg.val ∧
      (msgs s)[m.val]? = some msg ∧ routeOf s.cfg msg.cw = some u ∧ t = frameMessage u msg (setMi m (echoCheck s))) ∨
    (s.nmsg.val ≤ s.mi.val + 1 ∧ t = finishRequest (echoCheck s)) := by
  unfold endOfMessage at h
  split at h
  · cases h
  · rename_i c _
    split at h
    · rename_i hb
      cases h
      exact .inl ⟨_, _, by simpa using hb, rfl⟩
    · unfold nextMessage at h
      simp only [echoCheck_mi, echoCheck_nmsg] at h
      split at h
      · rename_i hn
        obtain ⟨msg, u, hm, hr, rfl⟩ := startMessage_next h
        refine .inr (.inl ⟨_, msg, u, rfl, hn, ?_, ?_, rfl⟩)
        · rw [← hm]; congr 1; symm; apply msgs_congr <;> simp
        · simpa using hr
      · rename_i hn
        cases h
        exact .inr (.inr ⟨by omega, rfl⟩)

theorem step_of_reset {s : State} (h : resetAsserted s = true) : step s = .next (resetBlock (tickReset s)) := by
  simp only [step, machineStep, h, if_true]

theorem step_of_quiet {s : State} (h : resetAsserted s = false) : step s = engineStep (tickReset s) := by
  simp only [step, machineStep, h, Bool.false_eq_true, if_false]

/-- The step of an idle engine with a descriptor presented. -/
theorem step_of_presented {s : State} (h : resetAsserted s = false) (hp : s.ph = .idle) {q : List Word}
    {rest : List (List Word)} (hq : s.reqs = q :: rest) : step s = acceptDescriptor q (tickReset s) := by
  have hp' : (tickReset s).ph = .idle := hp
  have hq' : (tickReset s).reqs = q :: rest := hq
  rw [step_of_quiet h]
  unfold engineStep
  rw [hp']
  simp only [idleStep, hq']

/-- What one step of the machine does when it answers a next state. -/
theorem step_cases {s t : State} (h : step s = .next t) : Stepped s t := by
  by_cases hr : resetAsserted s = true
  · rw [step_of_reset hr] at h; cases h; exact .reset hr
  · have hr : resetAsserted s = false := by simpa using hr
    rw [step_of_quiet hr] at h
    unfold engineStep at h
    split at h
    · rename_i hp
      simp only [tickReset_ph] at hp
      unfold idleStep at h
      split at h
      · rename_i hq; cases h; exact .waited hr hp hq
      · rename_i q rest hq
        simp only [tickReset_reqs] at hq
        unfold acceptDescriptor at h
        split at h
        · rename_i i hd; exact .accepted hr hp q rest i hq hd t h
        · rename_i hd; cases h; exact .reserved hr hp q rest hq hd
        · cases h
        · cases h
    · rename_i hp
      unfold settleStep at h
      split at h
      · cases h
      · cases h; exact .settled hr hp _
    · rename_i hp
      simp only [tickReset_ph] at hp
      cases ha : peerReply (tickReset s) (outWord (tickReset s)) with
      | fail => rw [exchangeStep_fail ha] at h; cases h; exact .failed hr hp _
      | ok r =>
        rw [exchangeStep_ok ha] at h
        unfold advance at h
        simp only [exchanged_xi, exchanged_mi, tickReset_xi, tickReset_mi] at h
        split at h
        · rename_i hx; cases h; exact .stored hr hp _ r hx
        · rename_i hx
          have hx : s.xi = 11 := by apply Fin.ext; have := s.xi.isLt; simp; omega
          rcases endOfMessage_cases h with ⟨sb, eb, hb, rfl⟩ | ⟨m, msg, u, he, hn, hm, hro, rfl⟩ | ⟨hn, rfl⟩
          · exact .mismatched hr hp hx _ r sb eb hb
          · simp only [markValid_mi, markValid_nmsg, exchanged_mi, exchanged_nmsg, tickReset_mi, tickReset_nmsg] at he hn
            simp only [markValid_cfg, exchanged_cfg, tickReset_cfg] at hro
            refine .continued hr hp hx _ r msg u m he hn ?_ hro
            rw [← hm]; congr 1; symm; apply msgs_congr <;> simp
          · simp only [markValid_mi, markValid_nmsg, exchanged_mi, exchanged_nmsg, tickReset_mi, tickReset_nmsg] at hn
            exact .finished hr hp hx _ r hn

end Sys2Proof.Machine
end

