-- ==== Sys2Proof/Laws/PerInstr.lean ====
section
/-! SUPPORT. Statements made for every instruction, one lemma per constructor. -/

namespace Sys2Proof.Laws.Encoding

/-- R85: the instruction's descriptor begins with one of the eleven request codes and has exactly as many operand Words as
that code takes. -/
def Statement (i : Instr) : Prop :=
  ∀ c : Cfg, ∃ w0 ops, encode c i = w0 :: ops ∧ 1 ≤ w0.toNat ∧ w0.toNat ≤ 11 ∧ ops.length = operandCount w0.toNat

theorem of_xfer {i : Instr} (h : ∀ c, ∃ cw d, encode c i = encodeXfer cw d) : Statement i := fun c => by
  obtain ⟨cw, d, hi⟩ := h c
  exact ⟨0x0001#16, cw :: d.toList, hi, by decide, by decide, rfl⟩

theorem xfer (cw : Word) (d : Payload) : Statement (.xfer cw d) := of_xfer fun _ => ⟨_, _, rfl⟩
theorem dec (cw : Word) : Statement (.dec cw) := fun _ => ⟨_, _, rfl, by decide, by decide, rfl⟩
theorem tmdef : Statement .tmdef := fun _ => ⟨_, _, rfl, by decide, by decide, rfl⟩
theorem tmsgl (slot asic group : Word) : Statement (.tmsgl slot asic group) := fun _ => ⟨_, _, rfl, by decide, by decide, rfl⟩
theorem tmblk (vlo vhi : Word) : Statement (.tmblk vlo vhi) := fun _ => ⟨_, _, rfl, by decide, by decide, rfl⟩
theorem tmsend : Statement .tmsend := fun _ => ⟨_, _, rfl, by decide, by decide, rfl⟩
theorem hpcap : Statement .hpcap := fun _ => ⟨_, _, rfl, by decide, by decide, rfl⟩
theorem tackset (ty mo : Word) : Statement (.tackset ty mo) := fun _ => ⟨_, _, rfl, by decide, by decide, rfl⟩
theorem schedset (t3 t2 t1 t0 : Word) : Statement (.schedset t3 t2 t1 t0) := fun _ => ⟨_, _, rfl, by decide, by decide, rfl⟩
theorem cntrst : Statement .cntrst := fun _ => ⟨_, _, rfl, by decide, by decide, rfl⟩
theorem synchs (t3 t2 t1 t0 : Word) : Statement (.synchs t3 t2 t1 t0) := fun _ => ⟨_, _, rfl, by decide, by decide, rfl⟩
theorem hkReset (d : Payload) : Statement (.hkReset d) := of_xfer fun _ => ⟨_, _, rfl⟩
theorem hkPwr (d : Payload) : Statement (.hkPwr d) := of_xfer fun _ => ⟨_, _, rfl⟩
theorem hkPres (d : Payload) : Statement (.hkPres d) := of_xfer fun _ => ⟨_, _, rfl⟩
theorem hkVolt (bank : BitVec 8) (d : Payload) : Statement (.hkVolt bank d) := of_xfer fun _ => ⟨_, _, rfl⟩
theorem hkCurr (bank : BitVec 8) (d : Payload) : Statement (.hkCurr bank d) := of_xfer fun _ => ⟨_, _, rfl⟩
theorem hkEnv (d : Payload) : Statement (.hkEnv d) := of_xfer fun _ => ⟨_, _, rfl⟩
theorem hkBrd (d : Payload) : Statement (.hkBrd d) := of_xfer fun _ => ⟨_, _, rfl⟩
theorem hkAdct (d : Payload) : Statement (.hkAdct d) := of_xfer fun _ => ⟨_, _, rfl⟩
theorem hkCalt (d : Payload) : Statement (.hkCalt d) := of_xfer fun _ => ⟨_, _, rfl⟩
theorem hkPbst (d : Payload) : Statement (.hkPbst d) := of_xfer fun _ => ⟨_, _, rfl⟩
theorem hkDqrst (d : Payload) : Statement (.hkDqrst d) := of_xfer fun _ => ⟨_, _, rfl⟩
theorem hkCkrst (d : Payload) : Statement (.hkCkrst d) := of_xfer fun _ => ⟨_, _, rfl⟩
theorem hkI2crst (d : Payload) : Statement (.hkI2crst d) := of_xfer fun _ => ⟨_, _, rfl⟩
theorem trNsset (d : Payload) : Statement (.trNsset d) := of_xfer fun _ => ⟨_, _, rfl⟩
theorem trNsrd (d : Payload) : Statement (.trNsrd d) := of_xfer fun _ => ⟨_, _, rfl⟩
theorem trMask0 (d : Payload) : Statement (.trMask0 d) := of_xfer fun _ => ⟨_, _, rfl⟩
theorem trMask1 (d : Payload) : Statement (.trMask1 d) := of_xfer fun _ => ⟨_, _, rfl⟩
theorem trMask2 (d : Payload) : Statement (.trMask2 d) := of_xfer fun _ => ⟨_, _, rfl⟩
theorem trMask3 (d : Payload) : Statement (.trMask3 d) := of_xfer fun _ => ⟨_, _, rfl⟩
theorem trLttrd (d : Payload) : Statement (.trLttrd d) := of_xfer fun _ => ⟨_, _, rfl⟩
theorem trHold (d : Payload) : Statement (.trHold d) := of_xfer fun _ => ⟨_, _, rfl⟩
theorem trSwtrg (d : Payload) : Statement (.trSwtrg d) := of_xfer fun _ => ⟨_, _, rfl⟩
theorem trHwen (d : Payload) : Statement (.trHwen d) := of_xfer fun _ => ⟨_, _, rfl⟩
theorem trHwdis (d : Payload) : Statement (.trHwdis d) := of_xfer fun _ => ⟨_, _, rfl⟩
theorem trCntrst (d : Payload) : Statement (.trCntrst d) := of_xfer fun _ => ⟨_, _, rfl⟩
theorem trHit0 (d : Payload) : Statement (.trHit0 d) := of_xfer fun _ => ⟨_, _, rfl⟩
theorem trHit1 (d : Payload) : Statement (.trHit1 d) := of_xfer fun _ => ⟨_, _, rfl⟩
theorem trHit2 (d : Payload) : Statement (.trHit2 d) := of_xfer fun _ => ⟨_, _, rfl⟩
theorem trHit3 (d : Payload) : Statement (.trHit3 d) := of_xfer fun _ => ⟨_, _, rfl⟩
theorem trArrcfg (d : Payload) : Statement (.trArrcfg d) := of_xfer fun _ => ⟨_, _, rfl⟩
theorem trTack (d : Payload) : Statement (.trTack d) := of_xfer fun _ => ⟨_, _, rfl⟩
theorem trSched (d : Payload) : Statement (.trSched d) := of_xfer fun _ => ⟨_, _, rfl⟩
theorem trDiag (d : Payload) : Statement (.trDiag d) := of_xfer fun _ => ⟨_, _, rfl⟩

end Sys2Proof.Laws.Encoding
end

