-- ==== Sys2Proof/Laws/Results.lean ====
section
/-! SUPPORT. What a read on `RES` yields, said once for each of its two cases, and the places the response data formats read. -/

namespace Sys2Proof.Machine

/-- Everything a guarded read can yield. -/
theorem readWhere_cases {α : Type} (valid : Bool) (s : State) (v any : α) :
    (valid = true ∧ statBusy s.stat = false ∧ readWhere valid s v any = v) ∨
    ((valid = false ∨ statBusy s.stat = true) ∧ readWhere valid s v any = any) := by
  unfold readWhere
  cases valid <;> cases statBusy s.stat <;> simp

/-- An idle engine's valid register is read as it is. -/
theorem readWhere_of_valid {α : Type} {valid : Bool} {s : State} (hv : valid = true) (hb : statBusy s.stat = false)
    (v any : α) : readWhere valid s v any = v := by simp [readWhere, hv, hb]

/-- Any other read yields the free value. -/
theorem readWhere_of_open {α : Type} {valid : Bool} {s : State} (h : valid = false ∨ statBusy s.stat = true) (v any : α) :
    readWhere valid s v any = any := by rcases h with h | h <;> simp [readWhere, h]

@[simp] theorem dataPos_val (j : Fin 8) : (dataPos j).val = 2 + j.val := rfl

theorem dataWords_get (s : State) (m : Fin 4) (j : Fin 8) : (dataWords s m)[j] = s.resp[m][dataPos j] := by
  simp [dataWords]

theorem analogBank_of_banked {c : Cfg} {cw : Word} (h : isBanked (classify c cw) = true) : analogBank c cw = subOf cw := by
  simp [analogBank, h]

theorem analogBank_of_plain {c : Cfg} {cw : Word} (h : isBanked (classify c cw) = false) : analogBank c cw = 0 := by
  simp [analogBank, h]

end Sys2Proof.Machine
end

