-- ==== Sys2Proof/Laws/Run.lean ====
section
/-! SUPPORT. Runs of the machine: how they compose, and the twelve exchanges of one message against any peer whose answers are
known, ended by the next message or by the end of the request. -/

namespace Sys2Proof.Machine

/-! ### Runs compose -/

theorem run_zero (s : State) : Host.Core.run core 0 s = .next s := rfl

/-- A run that begins with a step to `t` is the rest of it from `t`. -/
theorem run_succ {s t : State} (h : step s = .next t) (k : Nat) :
    Host.Core.run core (k + 1) s = Host.Core.run core k t := by
  have hs : core.step s = .next t := h
  simp only [Host.Core.run, hs]

theorem run_one {s t : State} (h : step s = .next t) : Host.Core.run core 1 s = .next t := run_succ h 0

/-- A run of `a + b` steps is one of `b` steps from where `a` steps lead. -/
theorem run_add {s t : State} {a : Nat} (h : Host.Core.run core a s = .next t) (b : Nat) :
    Host.Core.run core (a + b) s = Host.Core.run core b t := by
  induction a generalizing s with
  | zero => cases h; rw [Nat.zero_add]
  | succ a ih =>
    cases hs : step s with
    | next u =>
      rw [run_succ hs] at h
      rw [Nat.succ_add_eq_add_succ, Nat.add_succ, run_succ hs]
      exact ih h
    | fault r =>
      have hs : core.step s = .fault r := hs
      simp only [Host.Core.run, hs] at h
      cases h
    | refused r =>
      have hs : core.step s = .refused r := hs
      simp only [Host.Core.run, hs] at h
      cases h

/-! ### `RST` -/

theorem quiet_now {s : State} (h : RstQuiet s) : resetAsserted s = false := by
  unfold resetAsserted
  cases hr : s.rst with
  | nil => rfl
  | cons b l => exact h b (by rw [hr]; exact List.mem_cons_self)

theorem quiet_of_sub {s t : State} (h : RstQuiet s) (ht : ∀ b ∈ t.rst, b ∈ s.rst) : RstQuiet t := fun b hb => h b (ht b hb)

theorem quiet_of_tail {s t : State} (h : RstQuiet s) (ht : t.rst = s.rst.tail) : RstQuiet t :=
  quiet_of_sub h fun b hb => by rw [ht] at hb; exact List.mem_of_mem_tail hb

theorem quiet_of_drop {s t : State} (h : RstQuiet s) {k : Nat} (ht : t.rst = s.rst.drop k) : RstQuiet t :=
  quiet_of_sub h fun b hb => by rw [ht] at hb; exact List.mem_of_mem_drop hb

/-! ### The exchanges of one message -/

/-- The word sent on exchange `k` of the message framed in `s` (R103). -/
def sentWord (s : State) (k : Nat) : Word := if h : k < 11 then s.tx[k] else s.cfg.nullWord

/-- What a peer does over the twelve exchanges of the message framed in `s`: on exchange `k` it answers `ans k`, and it is
`peers k` before it. -/
structure Answers (s : State) (ans : Nat → Word) (peers : Nat → Peer) : Prop where
  start : s.peer = peers 0
  reply : ∀ k, k < 12 → ∀ u : State, u.peer = peers k → peerReply u (sentWord s k) = .ok (ans k)
  after : ∀ k, k < 12 → peerAfter (peers k) (sentWord s k) = peers (k + 1)

/-- The response buffer after `k` exchanges (R104). -/
def partialResponse (s : State) (ans : Nat → Word) (k : Nat) : Vector Word 11 :=
  Vector.ofFn fun p => if p.val + 1 < k then ans (p.val + 1) else s.resp[s.mi][p]

/-- The state after `k` exchanges, at most 11, of the message framed in `s`. -/
def midMessage (s : State) (ans : Nat → Word) (peers : Nat → Peer) (k : Fin 12) : State :=
  { s with
    rst := s.rst.drop k.val
    hist := s.hist ++ (List.range k.val).map fun j => .xchg (sentWord s j) (ans j)
    peer := peers k.val
    xcount := s.xcount + k.val
    resp := s.resp.set s.mi.val (partialResponse s ans k.val) s.mi.isLt
    xi := k }

theorem sentWord_outWord (s : State) : outWord s = sentWord s s.xi.val := rfl

/-- The state after all twelve exchanges of a message whose command echo is right. -/
def delivered (s : State) (ans : Nat → Word) (peers : Nat → Peer) : State :=
  { s with
    rst := s.rst.drop 12
    hist := s.hist ++ (List.range 12).map fun j => .xchg (sentWord s j) (ans j)
    peer := peers 12
    xcount := s.xcount + 12
    resp := s.resp.set s.mi.val (Vector.ofFn fun p => ans (p.val + 1)) s.mi.isLt
    respv := s.respv.set s.mi.val true s.mi.isLt
    xi := 11 }

theorem partialResponse_succ (s : State) (ans : Nat → Word) (x : Nat) (hx : x < 11) :
    (partialResponse s ans (x + 1)).set x (ans (x + 1)) = partialResponse s ans (x + 2) := by
  apply Vector.ext
  intro i hi
  simp only [partialResponse, Vector.getElem_set, Vector.getElem_ofFn]
  split
  · rename_i h
    rw [if_pos (by omega), h]
  · split <;> split <;> first | rfl | omega

theorem partialResponse_le_one (s : State) (ans : Nat → Word) (k : Nat) (hk : k ≤ 1) :
    partialResponse s ans k = s.resp[s.mi] := by
  apply Vector.ext
  intro i hi
  simp only [partialResponse, Vector.getElem_ofFn]
  rw [if_neg (by omega)]; rfl

theorem partialResponse_all (s : State) (ans : Nat → Word) :
    partialResponse s ans 12 = Vector.ofFn fun p => ans (p.val + 1) := by
  apply Vector.ext
  intro i hi
  simp only [partialResponse, Vector.getElem_ofFn]
  rw [if_pos (by omega)]

/-- The word received on exchange 0 is dropped (R104). -/
theorem exchanged_resp_first {s : State} (h : s.xi.val = 0) (w r : Word) : (exchanged w r s).resp = s.resp := by
  unfold exchanged compensate
  rw [if_neg (by rw [recordExchange_xi]; omega)]; rfl

/-- The word received on exchange `x + 1` is stored at response position `x` (R104). -/
theorem exchanged_resp_stored {s : State} {x : Nat} (h : s.xi.val = x + 1) (hx : x < 11) (w r : Word) :
    (exchanged w r s).resp = s.resp.set s.mi.val (s.resp[s.mi].set x r hx) s.mi.isLt := by
  unfold exchanged compensate
  rw [if_pos (by rw [recordExchange_xi]; omega)]
  simp only [writeResp_resp, recordExchange_xi, recordExchange_mi, recordExchange_resp, h, Nat.add_sub_cancel]

/-- A step on an exchange that is not the last of its message (R103 to R105). -/
theorem step_stored {s : State} {r : Word} (hr : resetAsserted s = false) (hp : s.ph = .xchg) (hx : s.xi.val < 11)
    (ha : peerReply (tickReset s) (outWord s) = .ok r) :
    step s = .next (setXi ⟨s.xi.val + 1, by omega⟩ (exchanged (outWord s) r (tickReset s))) := by
  have ho : outWord (tickReset s) = outWord s := rfl
  rw [step_of_quiet hr]
  simp only [engineStep, tickReset_ph, hp]
  rw [exchangeStep_ok (by rw [ho]; exact ha)]
  simp only [advance, exchanged_xi, tickReset_xi, hx, dif_pos, ho]

/-- A step on the last exchange of a message (R105). -/
theorem step_received {s : State} {r : Word} (hr : resetAsserted s = false) (hp : s.ph = .xchg) (hx : s.xi = 11)
    (ha : peerReply (tickReset s) s.cfg.nullWord = .ok r) :
    step s = endOfMessage (received s.cfg.nullWord r (tickReset s)) := by
  have ho : outWord (tickReset s) = s.cfg.nullWord := by
    simp only [outWord, tickReset_xi, hx]; rfl
  rw [step_of_quiet hr]
  simp only [engineStep, tickReset_ph, hp]
  rw [exchangeStep_ok (by rw [ho]; exact ha), ho]
  have hx' : ¬(exchanged s.cfg.nullWord r (tickReset s)).xi.val < 11 := by
    rw [exchanged_xi, tickReset_xi, hx]; decide
  simp only [advance, dif_neg hx', exchanged_mi, tickReset_mi, received]

theorem quiet_tick {s : State} (h : RstQuiet s) : RstQuiet (tickReset s) := quiet_of_tail h rfl

theorem midMessage_zero {s : State} {ans : Nat → Word} {peers : Nat → Peer} (h : Answers s ans peers) (hx : s.xi = 0) :
    midMessage s ans peers 0 = s := by
  apply state_ext <;> simp [midMessage, ← h.start, hx, partialResponse_le_one]

theorem midMessage_resp_mi (s : State) (ans : Nat → Word) (peers : Nat → Peer) (k : Fin 12) :
    (midMessage s ans peers k).resp[(midMessage s ans peers k).mi] = partialResponse s ans k.val := by
  simp [midMessage]

/-- One more exchange of a message (R103 to R105). -/
theorem step_midMessage {s : State} {ans : Nat → Word} {peers : Nat → Peer} (h : Answers s ans peers) (hq : RstQuiet s)
    (hp : s.ph = .xchg) (k l : Fin 12) (hk : k.val < 11) (hl : l.val = k.val + 1) :
    step (midMessage s ans peers k) = .next (midMessage s ans peers l) := by
  have hw : outWord (midMessage s ans peers k) = sentWord s k.val := rfl
  have ha : peerReply (tickReset (midMessage s ans peers k)) (outWord (midMessage s ans peers k)) = .ok (ans k.val) := by
    rw [hw]; exact h.reply k.val k.isLt _ rfl
  have hq' : RstQuiet (midMessage s ans peers k) := quiet_of_drop hq (k := k.val) rfl
  rw [step_stored (s := midMessage s ans peers k) (quiet_now hq') hp hk ha, hw]
  congr 1
  apply state_ext <;> try (first | rfl | (simp [midMessage]; done))
  case h5 =>
    rw [setXi_resp]
    by_cases h1 : k.val = 0
    · rw [exchanged_resp_first (s := tickReset (midMessage s ans peers k)) h1]
      simp only [tickReset_resp, midMessage, hl]
      rw [partialResponse_le_one s ans k.val (by omega), partialResponse_le_one s ans (k.val + 1) (by omega)]
    · obtain ⟨x, hx⟩ : ∃ x, k.val = x + 1 := ⟨k.val - 1, by omega⟩
      rw [exchanged_resp_stored (s := tickReset (midMessage s ans peers k)) hx (by omega)]
      simp only [tickReset_resp, tickReset_mi, midMessage_resp_mi, hx, partialResponse_succ s ans x (by omega)]
      simp only [midMessage, Vector.set_set, hl, hx]
  case h16 => exact Fin.ext hl.symm
  case h17 => simp [midMessage, hl, List.range_succ]
  case h19 => simp [midMessage, hl]
  case h20 => simpa [midMessage, hl] using h.after k.val k.isLt
  case h21 => simp [midMessage, hl]; omega

/-- The first `k` exchanges of a message, at most 11. -/
theorem run_midMessage {s : State} {ans : Nat → Word} {peers : Nat → Peer} (h : Answers s ans peers) (hq : RstQuiet s)
    (hp : s.ph = .xchg) (hx : s.xi = 0) (k : Nat) (hk : k < 12) :
    Host.Core.run core k s = .next (midMessage s ans peers ⟨k, hk⟩) := by
  induction k with
  | zero => rw [run_zero]; congr 1; exact (midMessage_zero h hx).symm
  | succ k ih =>
    rw [run_add (ih (by omega)) 1]
    exact run_one (step_midMessage h hq hp ⟨k, by omega⟩ ⟨k + 1, hk⟩ (by show k < 11; omega) rfl)

theorem sentWord_last (s : State) : sentWord s 11 = s.cfg.nullWord := rfl

/-- The twelve exchanges of a message, up to its end-of-message check (R103 to R105). -/
theorem run_delivered {s : State} {ans : Nat → Word} {peers : Nat → Peer} (h : Answers s ans peers) (hq : RstQuiet s)
    (hp : s.ph = .xchg) (hx : s.xi = 0) {t : State} (he : endOfMessage (delivered s ans peers) = .next t) :
    Host.Core.run core 12 s = .next t := by
  rw [run_add (run_midMessage h hq hp hx 11 (by omega)) 1]
  apply run_one
  have hq' : RstQuiet (midMessage s ans peers 11) := quiet_of_drop hq (k := 11) rfl
  have ha := h.reply 11 (by omega) (tickReset (midMessage s ans peers 11)) rfl
  rw [sentWord_last] at ha
  show step (midMessage s ans peers 11) = _
  rw [step_received (s := midMessage s ans peers 11) (quiet_now hq') hp rfl ha, ← he]
  congr 1
  apply state_ext <;> try (first | rfl | (simp [midMessage, delivered]; done))
  case h5 =>
    rw [received_resp, exchanged_resp_stored (s := tickReset (midMessage s ans peers 11)) (x := 10) rfl (by omega)]
    simp only [tickReset_resp, tickReset_mi, midMessage_resp_mi]
    show (midMessage s ans peers 11).resp.set _ ((partialResponse s ans (10 + 1)).set 10 (ans (10 + 1))) _ = _
    rw [partialResponse_succ s ans 10 (by omega), partialResponse_all]
    simp only [midMessage, delivered, Vector.set_set]
  case h17 =>
    simp only [received_hist, tickReset_hist, midMessage, delivered, List.append_assoc]
    rfl
  case h20 => simpa [midMessage, delivered, sentWord_last] using h.after 11 (by omega)

/-! ### The last exchange of a message -/

/-- The state after the last exchange of a message, written out (R104, R105). -/
theorem received_last {s : State} (hx : s.xi = 11) (w r : Word) : received w r (tickReset s) =
    { s with
      rst := s.rst.tail, hist := s.hist ++ [.xchg w r], peer := peerAfter s.peer w, xcount := s.xcount + 1
      resp := s.resp.set s.mi (s.resp[s.mi].set 10 r), respv := s.respv.set s.mi true } := by
  apply state_ext <;> try (simp; done)
  rw [received_resp, exchanged_resp_stored (s := tickReset s) (x := 10) (by rw [tickReset_xi, hx]; rfl) (by omega)]
  rfl

/-- The words of the message's response after its last exchange. -/
theorem received_word {s : State} (hx : s.xi = 11) (w r : Word) (p : Nat) (hp : p < 11) :
    (received w r (tickReset s)).resp[(received w r (tickReset s)).mi][p] =
      if p = 10 then r else s.resp[s.mi][p] := by
  have key : ∀ u : State, u.mi = s.mi → u.resp = s.resp.set s.mi.val (s.resp[s.mi].set 10 r) s.mi.isLt →
      u.resp[u.mi][p] = if p = 10 then r else s.resp[s.mi][p] := by
    intro u hm hu
    simp only [Fin.getElem_fin, hm, hu, Vector.getElem_set_self, Vector.getElem_set]
    split <;> split <;> first | rfl | omega
  have h := received_last hx w r
  exact key _ (by rw [h]) (by rw [h])

/-- The markers of the message's response after its last exchange (R106). -/
theorem startBad_received {s : State} (hx : s.xi = 11) (w r : Word) (t : Controller) :
    startBad t (received w r (tickReset s)) = (s.resp[s.mi][0] != s.cfg.som t) := by
  unfold startBad
  rw [received_word hx w r 0 (by omega), if_neg (by omega), received_cfg, tickReset_cfg]

theorem endBad_received {s : State} (hx : s.xi = 11) (w r : Word) (t : Controller) :
    endBad t (received w r (tickReset s)) = (r != s.cfg.eom t) := by
  unfold endBad
  rw [received_word hx w r 10 (by omega), if_pos rfl, received_cfg, tickReset_cfg]

/-- `STAT` after the command-echo check of the message's response (R106, R225). -/
theorem echoCheck_received_stat {s : State} (hx : s.xi = 11) (w r : Word) :
    (echoCheck (received w r (tickReset s))).stat =
      if s.resp[s.mi][1] != s.tx[1] then setEcho true s.stat else s.stat := by
  have h := received_word hx w r 1 (by omega)
  rw [if_neg (by omega)] at h
  rw [echoCheck_stat, h, received_stat, received_tx, tickReset_stat, tickReset_tx]

/-- The command-echo check changes `STAT` only. -/
theorem echoCheck_eq (s : State) : echoCheck s = { s with stat := (echoCheck s).stat } := by
  apply state_ext <;> simp

/-- A step on the last exchange of a message (R103 to R107). -/
theorem step_last {s : State} {t : Controller} {r : Word} (hr : resetAsserted s = false) (hp : s.ph = .xchg)
    (hx : s.xi = 11) (ht : s.tgt = some t) (ha : peerReply (tickReset s) s.cfg.nullWord = .ok r) :
    step s =
      if s.resp[s.mi][0] != s.cfg.som t || r != s.cfg.eom t then
        .next (raiseError (.framingMismatch (s.resp[s.mi][0] != s.cfg.som t) (r != s.cfg.eom t))
          (echoCheck (received s.cfg.nullWord r (tickReset s))))
      else nextMessage (echoCheck (received s.cfg.nullWord r (tickReset s))) := by
  rw [step_received hr hp hx ha]
  have ht' : (received s.cfg.nullWord r (tickReset s)).tgt = some t := by rw [received_tgt, tickReset_tgt, ht]
  simp only [endOfMessage, ht', startBad_received hx, endBad_received hx]

/-! ### A message whose markers and command echo are right -/

/-- The answers carry the message back: the start marker at exchange 1, the command word at 2, the end marker at 11. -/
structure GoodFor (s : State) (t : Controller) (ans : Nat → Word) : Prop where
  som : ans 1 = s.cfg.som t
  echo : ans 2 = s.tx[1]
  eom : ans 11 = s.cfg.eom t

theorem delivered_resp_mi (s : State) (ans : Nat → Word) (peers : Nat → Peer) :
    (delivered s ans peers).resp[(delivered s ans peers).mi] = Vector.ofFn fun p => ans (p.val + 1) := by
  simp [delivered]

theorem endOfMessage_delivered {s : State} {t : Controller} {ans : Nat → Word} {peers : Nat → Peer} (ht : s.tgt = some t)
    (hg : GoodFor s t ans) : endOfMessage (delivered s ans peers) = nextMessage (delivered s ans peers) := by
  have hs : startBad t (delivered s ans peers) = false := by
    simp only [startBad, delivered_resp_mi, Vector.getElem_ofFn]
    simp [hg.som, delivered]
  have he : endBad t (delivered s ans peers) = false := by
    simp only [endBad, delivered_resp_mi, Vector.getElem_ofFn]
    simp [hg.eom, delivered]
  have hc : echoCheck (delivered s ans peers) = delivered s ans peers := by
    unfold echoCheck
    simp only [delivered_resp_mi, Vector.getElem_ofFn]
    simp [hg.echo, delivered]
  have ht' : (delivered s ans peers).tgt = some t := ht
  unfold endOfMessage
  simp only [ht', hs, he, hc, Bool.or_self, Bool.false_eq_true, if_false]

/-- Twelve exchanges of a good message that another one of the request follows: that one is framed and begun (R107). -/
theorem run_message_next {s : State} {t u : Controller} {msg : Msg} {ans : Nat → Word} {peers : Nat → Peer} {m : Fin 4}
    (h : Answers s ans peers) (hq : RstQuiet s) (hp : s.ph = .xchg) (hx : s.xi = 0) (ht : s.tgt = some t)
    (hg : GoodFor s t ans) (he : m.val = s.mi.val + 1) (hn : m.val < s.nmsg.val) (hm : (msgs s)[m.val]? = some msg)
    (hr : routeOf s.cfg msg.cw = some u) :
    Host.Core.run core 12 s = .next (frameMessage u msg (setMi m (delivered s ans peers))) := by
  apply run_delivered h hq hp hx
  rw [endOfMessage_delivered ht hg]
  unfold nextMessage
  have hn' : (delivered s ans peers).mi.val + 1 < (delivered s ans peers).nmsg.val := by
    show s.mi.val + 1 < s.nmsg.val; omega
  rw [dif_pos hn']
  rw [he] at hm
  have hlt : s.mi.val + 1 < 4 := by have := s.nmsg.isLt; have := m.isLt; omega
  have hmi : m = ⟨s.mi.val + 1, hlt⟩ := Fin.ext he
  rw [hmi]
  exact startMessage_eq (s := setMi ⟨s.mi.val + 1, hlt⟩ (delivered s ans peers)) hm hr

/-- Twelve exchanges of a good message that is the request's last: the request ends (R107). -/
theorem run_message_last {s : State} {t : Controller} {ans : Nat → Word} {peers : Nat → Peer} (h : Answers s ans peers)
    (hq : RstQuiet s) (hp : s.ph = .xchg) (hx : s.xi = 0) (ht : s.tgt = some t) (hg : GoodFor s t ans)
    (hn : s.nmsg.val ≤ s.mi.val + 1) :
    Host.Core.run core 12 s = .next (finishRequest (delivered s ans peers)) := by
  apply run_delivered h hq hp hx
  rw [endOfMessage_delivered ht hg]
  unfold nextMessage
  rw [dif_neg (by show ¬ s.mi.val + 1 < s.nmsg.val; omega)]

/-! ### The two peers -/

/-- A peer that answers the Words of a list (R57). -/
theorem answers_script {s : State} (l : List Word) (hl : 12 ≤ l.length) (more : List LinkAnswer)
    (h : s.peer = .oracle (l.map LinkAnswer.ok ++ more)) :
    Answers s (fun k => l[k]?.getD 0) (fun k => .oracle ((l.map LinkAnswer.ok ++ more).drop k)) := by
  refine ⟨h, fun k hk u hu => ?_, fun k hk => ?_⟩
  · have hk' : k < l.length := by omega
    have : (l.map LinkAnswer.ok ++ more).drop k = .ok l[k] :: (l.map LinkAnswer.ok ++ more).drop (k + 1) := by
      rw [List.drop_eq_getElem_cons (by simp; omega)]
      simp [List.getElem_append_left, hk']
    rw [peerReply_script (hu.trans (by rw [this]))]
    simp [hk']
  · simp [peerAfter, List.tail_drop]

/-- The loopback peer (R65). -/
theorem answers_loopback {s : State} {last : Word} (h : s.peer = .loopback last) :
    Answers s (fun k => if k = 0 then last else sentWord s (k - 1))
      (fun k => .loopback (if k = 0 then last else sentWord s (k - 1))) := by
  refine ⟨h, fun k _ u hu => peerReply_loopback hu _, fun k _ => ?_⟩
  simp [peerAfter]

/-- A peer well behaved for the framed message (R57): its answers carry the message back, and what they leave in the response
buffer and in the history. -/
theorem answers_good {s : State} {t : Controller} {cw x : Word} {d r : Payload} {more : List LinkAnswer}
    (htx : s.tx = messageWords s.cfg t cw d) (hpeer : s.peer = .oracle (goodAnswers s.cfg t cw x r ++ more)) :
    ∃ ans peers, Answers s ans peers ∧ GoodFor s t ans ∧ peers 12 = .oracle more ∧
      (Vector.ofFn fun p : Fin 11 => ans (p.val + 1)) = goodResponse s.cfg t cw r ∧
      ((List.range 12).map fun j => Event.xchg (sentWord s j) (ans j)) = goodEvents s.cfg t cw d x r := by
  have hA := answers_script (s := s) (x :: s.cfg.som t :: cw :: (r.toList ++ [s.cfg.eom t])) (by simp [Payload.toList]) more
    hpeer
  refine ⟨_, _, hA, ⟨rfl, ?_, rfl⟩, ?_, ?_, ?_⟩
  · rw [htx]; rfl
  · simp [Payload.toList]
  · apply Vector.toList_inj.mp; rfl
  · simp only [sentWord, htx]; rfl

/-- The loopback peer carries the framed message back (R112). -/
theorem loopback_good {s : State} {t : Controller} {cw : Word} {d : Payload} (htx : s.tx = messageWords s.cfg t cw d)
    (last : Word) : GoodFor s t fun k => if k = 0 then last else sentWord s (k - 1) := by
  refine ⟨?_, ?_, ?_⟩
  · show sentWord s 0 = _; simp only [sentWord, htx]; rfl
  · rfl
  · show sentWord s 10 = _; simp only [sentWord, htx]; rfl

/-- What the loopback peer leaves in the response buffer (R112). -/
theorem loopback_response (s : State) (last : Word) :
    (Vector.ofFn fun p : Fin 11 => if p.val + 1 = 0 then last else sentWord s (p.val + 1 - 1)) = s.tx := by
  apply Vector.ext; intro i hi; simp [sentWord]

end Sys2Proof.Machine
end

