-- ==== Sys2Proof/Tests/Slice0.lean ====
section
/-! SUPPORT. Tests: expected values are the vectors of spec/95_test_vectors.md (V<n>) and the encodings of 30_encoding.md and
41_command_catalog.md, written out by hand. -/

open Sys2Proof Sys2Proof.Machine

/-! ### Well-formedness (R7, R8): one ill-formed term for each check -/

theorem test_wf_reference : refCfg.wf = true := by decide

theorem test_wf_equal_start_markers : ({ refCfg with somTrg := 0x5A01 } : Cfg).wf = false := by decide

theorem test_wf_overlapping_patterns : ({ refCfg with ops := refCfg.ops.set 5 0x3105 } : Cfg).allDisjoint = false := by decide

theorem test_wf_overlapping_refused : ({ refCfg with ops := refCfg.ops.set 5 0x3105 } : Cfg).wf = false := by decide

theorem test_wf_wrong_route : ({ refCfg with route := refCfg.route.set 3 none } : Cfg).wf = false := by decide

theorem test_wf_tack_not_injective : ({ refCfg with packTack := refCfg.packTack.set 5 4 } : Cfg).wf = false := by decide

theorem test_wf_tack_too_large : ({ refCfg with packTack := refCfg.packTack.set 5 16 } : Cfg).wf = false := by decide

theorem test_wf_presence_not_injective : ({ refCfg with pres := refCfg.pres.set 1 ⟨2, 0⟩ } : Cfg).wf = false := by decide

theorem test_wf_presence_position_low : ({ refCfg with pres := refCfg.pres.set 1 ⟨1, 0⟩ } : Cfg).wf = false := by decide

theorem test_wf_presence_position_high : ({ refCfg with pres := refCfg.pres.set 1 ⟨10, 0⟩ } : Cfg).wf = false := by decide

theorem test_wf_bank_pattern_low_byte : ({ refCfg with ops := refCfg.ops.set 3 0x3001 } : Cfg).wf = false := by decide

theorem test_wf_no_bank : ({ refCfg with numAbank := 0 } : Cfg).wf = false := by decide

theorem test_wf_too_many_banks : ({ refCfg with numAbank := 257 } : Cfg).wf = false := by decide

theorem test_wf_scale_zero : ({ refCfg with scaleEnv := ⟨0, 16⟩ } : Cfg).wf = false := by decide

theorem test_wf_scale_denominator_zero : ({ refCfg with scaleLv := ⟨1, 0⟩ } : Cfg).wf = false := by decide

/-- An `XFER` of `HK_PRES` is read as `HK_PRES`, never as `xfer`. -/
theorem test_wf_named_word_is_no_xfer : (Instr.xfer 0x2000 ⟨0, 0, 0, 0, 0, 0, 0, 0⟩).wf refCfg = false := by decide

theorem test_wf_bank_255_is_no_xfer : (Instr.xfer 0x30FF ⟨0, 0, 0, 0, 0, 0, 0, 0⟩).wf refCfg = false := by decide

/-! ### Decoding: each constructor by Words written out from the spec (V60; the Examples of R126 to R158) -/

/-- The payload 1 to 8 of the decoding tests. -/
def testPayload : Payload := ⟨1, 2, 3, 4, 5, 6, 7, 8⟩

theorem test_decode_xfer : decode refCfg [0x0001, 0xB004, 1, 2, 3, 4, 5, 6, 7, 8] = .ok (.xfer 0xB004 testPayload) := by rfl
theorem test_decode_dec : decode refCfg [0x0002, 0x3102] = .ok (.dec 0x3102) := by rfl
theorem test_decode_tmdef : decode refCfg [0x0003] = .ok .tmdef := by rfl
theorem test_decode_tmsgl : decode refCfg [0x0004, 0x0005, 0x0001, 0x0000] = .ok (.tmsgl 5 1 0) := by rfl
theorem test_decode_tmblk : decode refCfg [0x0005, 0x0008, 0x0000] = .ok (.tmblk 8 0) := by rfl
theorem test_decode_tmsend : decode refCfg [0x0006] = .ok .tmsend := by rfl
theorem test_decode_hpcap : decode refCfg [0x0007] = .ok .hpcap := by rfl
theorem test_decode_tackset : decode refCfg [0x0008, 0x0001, 0x0000] = .ok (.tackset 1 0) := by rfl
theorem test_decode_schedset : decode refCfg [0x0009, 0, 0, 0, 4] = .ok (.schedset 0 0 0 4) := by rfl
theorem test_decode_cntrst : decode refCfg [0x000A] = .ok .cntrst := by rfl
theorem test_decode_synchs : decode refCfg [0x000B, 0, 0, 0, 4] = .ok (.synchs 0 0 0 4) := by rfl
theorem test_decode_hkReset :
    decode refCfg [0x0001, 0x1000, 1, 2, 3, 4, 5, 6, 7, 8] = .ok (.hkReset testPayload) := by rfl
theorem test_decode_hkPwr :
    decode refCfg [0x0001, 0x1100, 1, 2, 3, 4, 5, 6, 7, 8] = .ok (.hkPwr testPayload) := by rfl
theorem test_decode_hkPres :
    decode refCfg [0x0001, 0x2000, 1, 2, 3, 4, 5, 6, 7, 8] = .ok (.hkPres testPayload) := by rfl
theorem test_decode_hkVolt :
    decode refCfg [0x0001, 0x3003, 1, 2, 3, 4, 5, 6, 7, 8] = .ok (.hkVolt 3 testPayload) := by rfl
theorem test_decode_hkCurr :
    decode refCfg [0x0001, 0x3102, 1, 2, 3, 4, 5, 6, 7, 8] = .ok (.hkCurr 2 testPayload) := by rfl
theorem test_decode_hkEnv :
    decode refCfg [0x0001, 0x3200, 1, 2, 3, 4, 5, 6, 7, 8] = .ok (.hkEnv testPayload) := by rfl
theorem test_decode_hkBrd :
    decode refCfg [0x0001, 0x3300, 1, 2, 3, 4, 5, 6, 7, 8] = .ok (.hkBrd testPayload) := by rfl
theorem test_decode_hkAdct :
    decode refCfg [0x0001, 0x1200, 1, 2, 3, 4, 5, 6, 7, 8] = .ok (.hkAdct testPayload) := by rfl
theorem test_decode_hkCalt :
    decode refCfg [0x0001, 0x1300, 1, 2, 3, 4, 5, 6, 7, 8] = .ok (.hkCalt testPayload) := by rfl
theorem test_decode_hkPbst :
    decode refCfg [0x0001, 0x2100, 1, 2, 3, 4, 5, 6, 7, 8] = .ok (.hkPbst testPayload) := by rfl
theorem test_decode_hkDqrst :
    decode refCfg [0x0001, 0x1400, 1, 2, 3, 4, 5, 6, 7, 8] = .ok (.hkDqrst testPayload) := by rfl
theorem test_decode_hkCkrst :
    decode refCfg [0x0001, 0x1500, 1, 2, 3, 4, 5, 6, 7, 8] = .ok (.hkCkrst testPayload) := by rfl
theorem test_decode_hkI2crst :
    decode refCfg [0x0001, 0x1600, 1, 2, 3, 4, 5, 6, 7, 8] = .ok (.hkI2crst testPayload) := by rfl
theorem test_decode_trNsset :
    decode refCfg [0x0001, 0x8000, 1, 2, 3, 4, 5, 6, 7, 8] = .ok (.trNsset testPayload) := by rfl
theorem test_decode_trNsrd :
    decode refCfg [0x0001, 0x8100, 1, 2, 3, 4, 5, 6, 7, 8] = .ok (.trNsrd testPayload) := by rfl
theorem test_decode_trMask0 :
    decode refCfg [0x0001, 0xA000, 1, 2, 3, 4, 5, 6, 7, 8] = .ok (.trMask0 testPayload) := by rfl
theorem test_decode_trMask1 :
    decode refCfg [0x0001, 0xA001, 1, 2, 3, 4, 5, 6, 7, 8] = .ok (.trMask1 testPayload) := by rfl
theorem test_decode_trMask2 :
    decode refCfg [0x0001, 0xA002, 1, 2, 3, 4, 5, 6, 7, 8] = .ok (.trMask2 testPayload) := by rfl
theorem test_decode_trMask3 :
    decode refCfg [0x0001, 0xA003, 1, 2, 3, 4, 5, 6, 7, 8] = .ok (.trMask3 testPayload) := by rfl
theorem test_decode_trLttrd :
    decode refCfg [0x0001, 0x8200, 1, 2, 3, 4, 5, 6, 7, 8] = .ok (.trLttrd testPayload) := by rfl
theorem test_decode_trHold :
    decode refCfg [0x0001, 0x8300, 1, 2, 3, 4, 5, 6, 7, 8] = .ok (.trHold testPayload) := by rfl
theorem test_decode_trSwtrg :
    decode refCfg [0x0001, 0x9000, 1, 2, 3, 4, 5, 6, 7, 8] = .ok (.trSwtrg testPayload) := by rfl
theorem test_decode_trHwen :
    decode refCfg [0x0001, 0x9100, 1, 2, 3, 4, 5, 6, 7, 8] = .ok (.trHwen testPayload) := by rfl
theorem test_decode_trHwdis :
    decode refCfg [0x0001, 0x9200, 1, 2, 3, 4, 5, 6, 7, 8] = .ok (.trHwdis testPayload) := by rfl
theorem test_decode_trCntrst :
    decode refCfg [0x0001, 0x8400, 1, 2, 3, 4, 5, 6, 7, 8] = .ok (.trCntrst testPayload) := by rfl
theorem test_decode_trHit0 :
    decode refCfg [0x0001, 0xB000, 1, 2, 3, 4, 5, 6, 7, 8] = .ok (.trHit0 testPayload) := by rfl
theorem test_decode_trHit1 :
    decode refCfg [0x0001, 0xB001, 1, 2, 3, 4, 5, 6, 7, 8] = .ok (.trHit1 testPayload) := by rfl
theorem test_decode_trHit2 :
    decode refCfg [0x0001, 0xB002, 1, 2, 3, 4, 5, 6, 7, 8] = .ok (.trHit2 testPayload) := by rfl
theorem test_decode_trHit3 :
    decode refCfg [0x0001, 0xB003, 1, 2, 3, 4, 5, 6, 7, 8] = .ok (.trHit3 testPayload) := by rfl
theorem test_decode_trArrcfg :
    decode refCfg [0x0001, 0x9300, 1, 2, 3, 4, 5, 6, 7, 8] = .ok (.trArrcfg testPayload) := by rfl
theorem test_decode_trTack :
    decode refCfg [0x0001, 0x9400, 1, 2, 3, 4, 5, 6, 7, 8] = .ok (.trTack testPayload) := by rfl
theorem test_decode_trSched :
    decode refCfg [0x0001, 0x8500, 1, 2, 3, 4, 5, 6, 7, 8] = .ok (.trSched testPayload) := by rfl
theorem test_decode_trDiag :
    decode refCfg [0x0001, 0xC000, 1, 2, 3, 4, 5, 6, 7, 8] = .ok (.trDiag testPayload) := by rfl
/-- A reserved word 0 (V61). -/
theorem test_decode_reserved :
    [0x0000, 0x000C, 0x000D, 0x000E, 0x000F, 0x0011, 0x8003, 0xFFFF].all
      (fun w => decode refCfg [w] == .error .reservedCode) = true := by decide

theorem test_decode_bad_length : decode refCfg [0x0002, 0, 0] = .error .badLength := by rfl

/-- The fields of V21. -/
theorem test_fields : (catOf 0xA5C3, fnOf 0xA5C3, subOf 0xA5C3) = (0xA#4, 0x5#4, 0xC3#8) := by decide

/-- The table's numbering: word 0 in the low bits, later words above it. -/
theorem test_table_tmsgl : decodeTableWord 64 0x0000000100050004 = some (.tmsgl 5 1 0) := by rfl
theorem test_table_synchs : decodeTableWord 16 0x000B = some (.synchs 0 0 0 0) := by rfl
theorem test_table_xfer : decodeTableWord 16 0x0001 = some (.xfer 0 ⟨0, 0, 0, 0, 0, 0, 0, 0⟩) := by rfl
theorem test_table_hkVolt : decodeTableWord 16 0x3002 = some (.hkVolt 2 ⟨0, 0, 0, 0, 0, 0, 0, 0⟩) := by rfl
theorem test_table_reserved : decodeTableWord 16 0x0000 = none := by rfl

/-! ### One step -/

/-- The state after reset with one descriptor presented. -/
def presented (q : List Word) : State := { State.reset with reqs := [q] }

/-- A running `XFER 0x8100` (`TR_NSRD`, R140) at exchange `x`, its response `r` so far, its peer `p`. -/
def runningXfer (x : Fin 12) (r : Vector Word 11) (p : Peer) : State :=
  { xferStarted State.reset .trg 0x8100 ⟨0, 0, 0, 0, 0, 0, 0, 0⟩ false with xi := x, resp := State.reset.resp.set 0 r, peer := p }

/-- A running `TMSEND` at exchange `x` of its first message. -/
def runningTmsend (x : Fin 12) (r : Vector Word 11) (p : Peer) : State :=
  { linkStarted State.reset 0x6 State.reset.arg 4 .trg 0xA000
      ⟨0xFFFF, 0xFFFF, 0xFFFF, 0xFFFF, 0xFFFF, 0xFFFF, 0xFFFF, 0xFFFF⟩ false with
    xi := x, resp := State.reset.resp.set 0 r, peer := p }

/-- A field of the next state, or `none` where there is none. -/
def after {α : Type} (r : Result) (f : State → α) : Option α :=
  match r with
  | .next s => some (f s)
  | .fault _ | .refused _ => none

/-- V20. -/
theorem test_dec_hkCurr : after (step (presented [0x0002, 0x3102])) (fun s => (s.decr0, s.decr1, s.stat)) =
    some (0x3102, 0x0745, 0x0002) := by decide
theorem test_dec_words : [0x3109, 0x3000, 0x30FF, 0x3200, 0x3201, 0x3300, 0xB003, 0xC000, 0xC001, 0x0000, 0xFFFF].map
    (decodeResult refCfg) =
    [0x0545, 0x0744, 0x0544, 0x0446, 0x0040, 0x0447, 0x009D, 0x00A1, 0x0080, 0x0000, 0x0000] := by decide

/-- V31. -/
theorem test_tmsgl : after (step (presented [0x0004, 31, 3, 3])) (fun s => (s.mask[31], s.mask[30], s.stat)) =
    some (0x7FFF, 0xFFFF, 0x0002) := by decide
theorem test_tmsgl_invalid : after (step (presented [0x0004, 5, 7, 2])) (fun s => (s.mask[5], s.stat, s.opr)) =
    some (0xFFFF, 0x000E, 0) := by decide

/-- V30: all 16 bits. -/
theorem test_maskBit : [0, 1, 2, 3].map (fun a => [0, 1, 2, 3].map (maskBit a)) =
    [[0, 1, 4, 5], [2, 3, 6, 7], [8, 9, 12, 13], [10, 11, 14, 15]] := by decide

/-- V32: `TMSGL` does not accumulate. -/
theorem test_tmsgl_not_cumulative :
    after (step { presented [0x0004, 6, 0, 0] with mask := State.reset.mask.set 5 0xFFFB })
      (fun s => (s.mask[5], s.mask[6])) = some (0xFFFF, 0xFFFE) := by decide

/-- V33. -/
theorem test_tmdef : after (step { presented [0x0003] with mask := Vector.replicate 32 7 }) (fun s => (s.mask[0], s.mask[31])) =
    some (0xFFFF, 0xFFFF) := by decide

/-- V34. -/
theorem test_tmblk : after (step (presented [0x0005, 0x8001, 0x0100])) (fun s => (s.mask[0], s.mask[1], s.mask[15], s.mask[24])) =
    some (0x0000, 0xFFFF, 0x0000, 0x0000) := by decide
theorem test_tmblk_string : assembleBulk "0001000000000000000000000000000x".toList = some (0x0008, 0x0000) := by decide
theorem test_tmblk_string_short : assembleBulk "0001".toList = none := by decide

/-- V14, step 1. -/
theorem test_xfer_accept : after (step (presented [0x0001, 0x2000, 0, 0, 0, 0, 0, 0, 0, 0]))
    (fun s => (s.stat, s.nmsg, s.tx[1], s.tgt, s.ph)) = some (0x0001, 1, 0x2000, some .hk, .xchg) := by decide
/-- V11. -/
theorem test_xfer_unroutable : after (step (presented [0x0001, 0x7000, 0, 0, 0, 0, 0, 0, 0, 0]))
    (fun s => (s.stat, s.opr, s.hist)) = some (0x000E, 0, []) := by decide
/-- V27: an analog readback waits first, an invalid bank too. -/
theorem test_hkVolt_waits : after (step (presented [0x0001, 0x30FF, 0, 0, 0, 0, 0, 0, 0, 0])) (fun s => (s.ph, s.tx[1])) =
    some (.settle, 0x30FF) := by decide
/-- V51. -/
theorem test_tackset : after (step (presented [0x0008, 2, 1])) (fun s => (s.tx[0], s.tx[1], s.tx[2], s.tx[10])) =
    some (0x5A02, 0x9400, 0x0009, 0x5AF2) := by decide
theorem test_tackset_invalid : after (step (presented [0x0008, 4, 0])) (fun s => (s.stat, s.ph)) = some (0x000E, .idle) := by
  decide
/-- V52. -/
theorem test_schedset : after (step (presented [0x0009, 0x0123, 0x4567, 0x89AB, 0xCDEF]))
    (fun s => (s.tx[1], s.tx[2], s.tx[3], s.tx[4], s.tx[5])) = some (0x8500, 0x0123, 0x4567, 0x89AB, 0xCDEF) := by decide
/-- V53. -/
theorem test_cntrst : after (step (presented [0x000A])) (fun s => (s.tx[0], s.tx[1], s.tx[2])) =
    some (0x5A02, 0x8400, 0x0000) := by decide
/-- Programs P2, P3 and P4: the first message of each. -/
theorem test_tmsend : after (step (presented [0x0006])) (fun s => (s.nmsg, s.tx[1], s.tx[2], s.ph)) =
    some (4, 0xA000, 0xFFFF, .xchg) := by decide
theorem test_hpcap : after (step { presented [0x0007] with hpv := true }) (fun s => (s.nmsg, s.tx[1], s.hpv)) =
    some (4, 0xB000, false) := by decide
theorem test_synchs : after (step (presented [0x000B, 0, 0, 0, 4])) (fun s => (s.nmsg, s.tx[1], s.tx[2], s.ph)) =
    some (4, 0x9400, 0x0004, .xchg) := by decide

/-- V5: a link failure on exchange 5. -/
theorem test_link_failure :
    after (step (runningXfer 5 #v[0x5A02, 0x8100, 0xAAAA, 0xBBBB, 0, 0, 0, 0, 0, 0, 0] (.oracle [.fail])))
      (fun s => (s.stat, s.hist, s.respv[0], s.ph)) = some (0x5006, [.xchgFail 0x0000], false, .idle) := by decide
/-- V9: every marker and the echo wrong. -/
theorem test_framing_mismatch :
    after (step (runningXfer 11 #v[0, 0x5A02, 0x8100, 0, 0, 0, 0, 0, 0, 0, 0] (.oracle [.ok 0x0000])))
      (fun s => (s.stat, s.respv[0], s.resp[0][10])) = some (0x032A, true, 0x0000) := by decide
/-- V4: a wrong echo alone, on the last exchange. -/
theorem test_echo_only :
    after (step (runningXfer 11 #v[0x5A02, 0x8101, 0, 0, 0, 0, 0, 0, 0, 0, 0] (.oracle [.ok 0x5AF2])))
      (fun s => (s.stat, s.respv[0])) = some (0x0022, true) := by decide
/-- V2: the word received on exchange 0 is stored nowhere. -/
theorem test_first_word_dropped :
    after (step (runningXfer 0 (Vector.replicate 11 7) (.oracle [.ok 0xBEEF])))
      (fun s => (s.resp[0] == Vector.replicate 11 7, s.xi, s.hist)) = some (true, 1, [.xchg 0x5A02 0xBEEF]) := by decide

/-- R250: reset during an exchange. -/
theorem test_reset : after (step { runningXfer 5 (Vector.replicate 11 7) (.oracle []) with rst := [true] })
    (fun s => (s.ph, s.stat, s.tgt, s.hist, s.mask[3])) = some (.idle, 0x0000, none, [], 0xFFFF) := by decide

/-- V40, V41. -/
theorem test_reorder : (reorder (Vector.ofFn fun i => 0x0100 + BitVec.ofNat 16 i.val))[0] = 0x011F := by decide
theorem test_lanes : [0, 1, 2, 3].map (fun l => laneNumber (wordLanes 0xA5C3)[Fin.ofNat 4 l]) = [5, 9, 6, 10] := by decide
theorem test_unlanes : unlaneWord (wordLanes 0xA5C3) = 0xA5C3 := by decide

/-- V50. -/
theorem test_time_words : timeToWords 20000 = [0x0000, 0x0000, 0x0000, 0x4E20] ∧ wordsToTime 0 0 0 0x4E20 = 20000 := by decide

/-- V26. -/
theorem test_presence : (List.range 32).filter (fun s =>
    present refCfg #v[0, 0, 0x0021, 0x8000, 0xFFFF, 0, 0, 0, 0, 0, 0] (Fin.ofNat 32 s)) = [0, 5, 31] := by decide

/-- The example of R161, with the presence words at positions 2 and 3 of `RESP[0]`. -/
theorem test_presence_of_response : (List.range 32).filter (fun s => slotPresent
    { State.reset with resp := State.reset.resp.set 0 #v[0, 0, 0x0021, 0x8000, 0, 0, 0, 0, 0, 0, 0] } (Fin.ofNat 32 s)) =
      [0, 5, 31] := by decide

/-- The example of R159: `HK_VOLT` with 0x0600 as value 7, which stands at position 9 of `RESP[0]`, reads 12. -/
theorem test_analog_of_response : analogValue
    { State.reset with resp := State.reset.resp.set 0 #v[0, 0, 0, 0, 0, 0, 0, 0, 0, 0x0600, 0xFFFF] } .volt 0 7 = 12 := by
  have h : scaleOf refCfg .volt 0 7 = 1 / 128 := by simp [scaleOf, railOf, scaleOfRail, refCfg]
  show ((0x0600 : Word).toNat : Rat) * scaleOf refCfg .volt 0 7 = 12
  rw [h, show (0x0600 : Word).toNat = 1536 from rfl]; norm_num

/-- V25: `HK_BRD` reading 0x0CE4. -/
theorem test_analog : analogDecode refCfg .brd 0 0 0x0CE4 = 825 / 256 := by
  have h : scaleOf refCfg .brd 0 0 = 1 / 1024 := by simp [scaleOf, railOf, scaleOfRail, refCfg]
  rw [analogDecode, h, show (0x0CE4 : Word).toNat = 3300 from rfl]; norm_num

/-- Running `step` on the instruction that `withFetchWord` placed, after reset. -/
theorem test_fetch_tmdef : after (step (State.reset.withFetchWord 16 0x0003)) (fun s => (s.stat, s.opr)) =
    some (0x0002, 3) := by decide
theorem test_fetch_trTack : after (step (State.reset.withFetchWord 16 0x9400)) (fun s => (s.stat, s.opr, s.tx[1])) =
    some (0x0001, 1, 0x9400) := by decide

/-! ### Witnesses: a state and operands that meet all hypotheses of each statement together -/

/-- Idle, with the descriptors `q` presented and the peer `p`. -/
def idleWith (q : List (List Word)) (p : Peer) : State := { State.reset with reqs := q, peer := p }

theorem idleStat_zero : IdleStat 0x0000#16 := by constructor <;> decide

theorem idleWith_inv (q : List (List Word)) (p : Peer) : Inv (idleWith q p) where
  cfgWf := test_wf_reference
  nmsgPos := by show 1 ≤ (1 : Fin 5).val; decide
  decrZero := by show decrZero 0#16 = 0#5; decide
  decrCls := by show (decrCls 0#16).toNat ≤ 33; decide
  decrTgtd := by show (decrTgtd 0#16).toNat ≤ 2; decide
  idle _ := ⟨idleStat_zero, rfl, rfl⟩
  running h := absurd rfl h

theorem idleWith_quiet (q : List (List Word)) (p : Peer) : RstQuiet (idleWith q p) := by intro b hb; cases hb

theorem runningXfer_msgs (x : Fin 12) (r : Vector Word 11) (p : Peer) :
    msgs (runningXfer x r p) = xferMsgs refCfg 0x8100 ⟨0, 0, 0, 0, 0, 0, 0, 0⟩ := rfl

theorem runningXfer_inv (x : Fin 12) (r : Vector Word 11) (p : Peer) : Inv (runningXfer x r p) where
  cfgWf := test_wf_reference
  nmsgPos := by show 1 ≤ (1 : Fin 5).val; decide
  decrZero := by show decrZero 0#16 = 0#5; decide
  decrCls := by show (decrCls 0#16).toNat ≤ 33; decide
  decrTgtd := by show (decrTgtd 0#16).toNat ≤ 2; decide
  idle h := by cases h
  running _ :=
    { stat := .inl rfl
      count := rfl
      current := by show 0 < 1; decide
      framed := ⟨_, .trg, by rw [runningXfer_msgs]; rfl, rfl, rfl, rfl⟩
      routable := by rw [runningXfer_msgs]; show ∀ m ∈ xferMsgs refCfg 0x8100 _, (routeOf refCfg m.cw).isSome = true; decide
      valid := by intro m; show (#v[false, false, false, false] : Vector Bool 4)[m] = decide (m.val < 0); revert m; decide
      settle := by intro h; cases h }

theorem runningXfer_quiet (x : Fin 12) (r : Vector Word 11) (p : Peer) : RstQuiet (runningXfer x r p) := by
  intro b hb; cases hb

theorem runningTmsend_msgs (x : Fin 12) (r : Vector Word 11) (p : Peer) :
    msgs (runningTmsend x r p) = tmsendMsgs refCfg State.reset.mask := rfl

theorem runningTmsend_inv (x : Fin 12) (r : Vector Word 11) (p : Peer) : Inv (runningTmsend x r p) where
  cfgWf := test_wf_reference
  nmsgPos := by show 1 ≤ (4 : Fin 5).val; decide
  decrZero := by show decrZero 0#16 = 0#5; decide
  decrCls := by show (decrCls 0#16).toNat ≤ 33; decide
  decrTgtd := by show (decrTgtd 0#16).toNat ≤ 2; decide
  idle h := by cases h
  running _ :=
    { stat := .inl rfl
      count := rfl
      current := by show 0 < 4; decide
      framed := ⟨_, .trg, by rw [runningTmsend_msgs]; rfl, rfl, rfl,
        by show #v[_, _, _, _, _, _, _, _, _, _, _] = messageWords refCfg .trg _ (maskPayload State.reset.mask 0); decide⟩
      routable := by
        rw [runningTmsend_msgs]
        show ∀ m ∈ tmsendMsgs refCfg State.reset.mask, (routeOf refCfg m.cw).isSome = true; decide
      valid := by intro m; show (#v[false, false, false, false] : Vector Bool 4)[m] = decide (m.val < 0); revert m; decide
      settle := by intro h; cases h }

/-- The running analog readback `XFER 0x3000` (`HK_VOLT(0)`), before its settle wait. -/
def waitingVolt : State := xferStarted State.reset .hk 0x3000 ⟨0, 0, 0, 0, 0, 0, 0, 0⟩ true

/-- The last exchange of an `HPCAP`: capture 3 answered so far, its end marker next. -/
def endingHpcap : State :=
  { linkStarted State.reset 0x7 State.reset.arg 4 .trg 0xB003 ⟨0, 0, 0, 0, 0, 0, 0, 0⟩ false with
    mi := 3, xi := 11, respv := #v[true, true, true, false], peer := .oracle [.ok 0x5AF2]
    resp := State.reset.resp.set 3 #v[0x5A02, 0xB003, 0x0008, 0, 0, 0, 0, 0, 0, 0, 0] }

theorem endingHpcap_inv : Inv endingHpcap where
  cfgWf := test_wf_reference
  nmsgPos := by decide
  decrZero := by decide
  decrCls := by decide
  decrTgtd := by decide
  idle h := by cases h
  running _ :=
    { stat := .inl rfl
      count := rfl
      current := by decide
      framed := ⟨⟨none, 0xB003, ⟨0, 0, 0, 0, 0, 0, 0, 0⟩⟩, .trg, rfl, rfl, rfl, rfl⟩
      routable := by show ∀ m ∈ hpcapMsgs refCfg, (routeOf refCfg m.cw).isSome = true; decide
      valid := by decide
      settle := by intro h; cases h }

theorem test_witness_DecodeOfEncode : refCfg.wf = true ∧ (Instr.hkVolt 0xFF testPayload).wf refCfg = true ∧
    (Instr.xfer 0xB004 testPayload).wf refCfg = true ∧ (Instr.tmsgl 0xFFFF 0 0).wf refCfg = true := by decide

theorem test_witness_EncodeOfDecode : refCfg.wf = true ∧ decode refCfg [0x0002, 0xFFFF] = .ok (.dec 0xFFFF) :=
  ⟨by decide, rfl⟩

/-- One Word for each way a word 0 is reserved: a bit of 15:4 at either end, code 0, code 12. -/
theorem test_witness_ReservedDescriptorRefused :
    (∀ q, (presented q).ph = .idle ∧ resetAsserted (presented q) = false ∧ (presented q).reqs = [q]) ∧
    (0x0011#16).extractLsb' 4 12 ≠ 0#12 ∧ (0x8003#16).extractLsb' 4 12 ≠ 0#12 ∧ (0x0000#16).extractLsb' 0 4 = 0#4 ∧
      12 ≤ ((0x000C#16).extractLsb' 0 4).toNat := ⟨fun _ => ⟨rfl, rfl, rfl⟩, by decide⟩

/-- A plain class, and a banked one at its last bank and past it. -/
theorem test_witness_ClassifyIsThePattern : refCfg.wf = true ∧ classify refCfg 0x2000 = some .hkPres ∧
    bankValid refCfg 0x3003 = true ∧ bankValid refCfg 0x3004 = false := by decide

theorem test_witness_DecRecordsTheClass : State.reset.ph = .idle := rfl

theorem test_witness_TmdefSetsTheDefault : State.reset.ph = .idle := rfl

theorem test_witness_TmsglBuildsSingleTarget :
    State.reset.ph = .idle ∧ (31#16).toNat ≤ 31 ∧ (3#16).toNat ≤ 3 ∧ (3#16).toNat ≤ 3 := by decide

theorem test_witness_TmsglClearsExactlyOneBit :
    State.reset.ph = .idle ∧ (0#16).toNat ≤ 31 ∧ (0#16).toNat ≤ 3 ∧ (0#16).toNat ≤ 3 := by decide

theorem test_witness_TmblkDisablesMarkedSlots : State.reset.ph = .idle := rfl

theorem test_witness_BulkStringDisablesMarkedSlots : (List.replicate 31 '1').length ≠ 32 ∧ (List.replicate 33 '1').length ≠ 32 ∧
    (List.replicate 32 '1').length = 32 ∧ State.reset.ph = .idle := by decide

theorem test_witness_XferStartsTheMessage : State.reset.ph = .idle ∧ routeOf State.reset.cfg 0xB004 = some .trg ∧
    routeOf State.reset.cfg 0x30FF = some .hk := by decide

theorem test_witness_HousekeepingCommandsSend : State.reset.cfg.wf = true ∧ State.reset.ph = .idle := ⟨test_wf_reference, rfl⟩

theorem test_witness_AnalogReadbacksWaitAndSend : State.reset.cfg.wf = true ∧ State.reset.ph = .idle := ⟨test_wf_reference, rfl⟩

theorem test_witness_TriggerCommandsSend : State.reset.cfg.wf = true ∧ State.reset.ph = .idle := ⟨test_wf_reference, rfl⟩

theorem test_witness_TmsendStartsBankZero : State.reset.cfg.wf = true ∧ State.reset.ph = .idle := ⟨test_wf_reference, rfl⟩

theorem test_witness_HpcapStartsCaptureZero : State.reset.cfg.wf = true ∧ State.reset.ph = .idle := ⟨test_wf_reference, rfl⟩

theorem test_witness_TacksetStartsTheMessage :
    State.reset.cfg.wf = true ∧ State.reset.ph = .idle ∧ (3#16).toNat ≤ 3 ∧ (0#16).toNat ≤ 3 :=
  ⟨test_wf_reference, rfl, by decide⟩

theorem test_witness_SchedsetStartsTheMessage : State.reset.cfg.wf = true ∧ State.reset.ph = .idle := ⟨test_wf_reference, rfl⟩

theorem test_witness_CntrstStartsTheMessage : State.reset.cfg.wf = true ∧ State.reset.ph = .idle := ⟨test_wf_reference, rfl⟩

theorem test_witness_SynchsStartsByArming : State.reset.cfg.wf = true ∧ State.reset.ph = .idle := ⟨test_wf_reference, rfl⟩

/-- The clauses of `InvalidParameterLeavesNoTrace` after the first: an unroutable Word, each operand just out of its range,
and a running state that steps. -/
theorem test_witness_InvalidParameterLeavesNoTrace :
    (State.reset.ph = .idle ∧ routeOf State.reset.cfg 0x7000 = none) ∧
    (31 < (32#16).toNat ∧ 3 < (4#16).toNat) ∧
    (Inv (runningXfer 0 (Vector.replicate 11 0) (.loopback 0)) ∧
      resetAsserted (runningXfer 0 (Vector.replicate 11 0) (.loopback 0)) = false ∧
      (runningXfer 0 (Vector.replicate 11 0) (.loopback 0)).ph ≠ .idle ∧
      ∃ t, step (runningXfer 0 (Vector.replicate 11 0) (.loopback 0)) = .next t) :=
  ⟨by decide, by decide, runningXfer_inv _ _ _, rfl, by decide, _, rfl⟩

theorem test_witness_RequestsAreHeldWhileRunning :
    resetAsserted (runningXfer 0 (Vector.replicate 11 0) (.loopback 0)) = false ∧
      (runningXfer 0 (Vector.replicate 11 0) (.loopback 0)).ph ≠ .idle ∧
      ∃ t, step (runningXfer 0 (Vector.replicate 11 0) (.loopback 0)) = .next t :=
  ⟨rfl, by decide, _, rfl⟩

theorem test_witness_StepRunsThePresentedRequest :
    (resetAsserted (presented [0x0003]) = false ∧ (presented [0x0003]).ph = .idle ∧ (presented [0x0003]).reqs = [[0x0003]] ∧
      decode (presented [0x0003]).cfg [0x0003] = .ok .tmdef) ∧
    (resetAsserted State.reset = false ∧ State.reset.ph = .idle ∧ State.reset.reqs = []) :=
  ⟨⟨rfl, rfl, rfl, rfl⟩, rfl, rfl, rfl⟩

/-- No Word; the first and the last legal code with an operand Word too few or too many. -/
theorem test_witness_MalformedDescriptorStops : ∀ q ∈ [[], [0x0001#16], [0x000B#16, 0, 0, 0, 0, 0], [0x0003#16, 0]],
    resetAsserted (presented q) = false ∧ (presented q).ph = .idle ∧ (presented q).reqs = [q] ∧
      (q = [] ∨ ∃ w0 ops, q = w0 :: ops ∧ 1 ≤ w0.toNat ∧ w0.toNat ≤ 11 ∧ ops.length ≠ operandCount w0.toNat) := by
  intro q hq
  simp only [List.mem_cons, List.not_mem_nil, or_false] at hq
  rcases hq with rfl | rfl | rfl | rfl
  · exact ⟨rfl, rfl, rfl, .inl rfl⟩
  all_goals exact ⟨rfl, rfl, rfl, .inr ⟨_, _, rfl, by decide, by decide, by decide⟩⟩

theorem waitingVolt_msgs : msgs waitingVolt = xferMsgs refCfg 0x3000 ⟨0, 0, 0, 0, 0, 0, 0, 0⟩ := rfl

theorem waitingVolt_inv : Inv waitingVolt where
  cfgWf := test_wf_reference
  nmsgPos := by decide
  decrZero := by decide
  decrCls := by decide
  decrTgtd := by decide
  idle h := by cases h
  running _ :=
    { stat := .inl rfl
      count := rfl
      current := by decide
      framed := ⟨_, .hk, by rw [waitingVolt_msgs]; rfl, rfl, rfl, rfl⟩
      routable := by rw [waitingVolt_msgs]; decide
      valid := by decide
      settle := by rw [waitingVolt_msgs]; decide }

theorem test_witness_SettleStepWaits : Inv waitingVolt ∧ resetAsserted waitingVolt = false ∧ waitingVolt.ph = .settle :=
  ⟨waitingVolt_inv, rfl, rfl⟩

/-- The first exchange, the last that sends `TX`, and the one that sends `NULL_WORD`. -/
theorem test_witness_ExchangeSendsTheNextWord : ∀ x ∈ [(0 : Fin 12), 10, 11],
    Inv (runningXfer x (Vector.replicate 11 0) (.loopback 0)) ∧ resetAsserted (runningXfer x (Vector.replicate 11 0) (.loopback 0)) = false ∧
      (runningXfer x (Vector.replicate 11 0) (.loopback 0)).ph = .xchg ∧
      ∃ t, step (runningXfer x (Vector.replicate 11 0) (.loopback 0)) = .next t := by
  intro x hx
  simp only [List.mem_cons, List.not_mem_nil, or_false] at hx
  rcases hx with rfl | rfl | rfl <;> exact ⟨runningXfer_inv _ _ _, rfl, rfl, _, rfl⟩

/-- Exchange 0, whose word is dropped, and exchanges 1 and 10. -/
theorem test_witness_ReceivedWordIsStoredOneBack : ∀ x ∈ [(0 : Fin 12), 1, 10],
    resetAsserted (runningXfer x (Vector.replicate 11 0) (.oracle [.ok 0xBEEF])) = false ∧
      (runningXfer x (Vector.replicate 11 0) (.oracle [.ok 0xBEEF])).ph = .xchg ∧ x.val < 11 ∧
      ∀ w, peerReply (runningXfer x (Vector.replicate 11 0) (.oracle [.ok 0xBEEF])) w = .ok 0xBEEF := by
  intro x hx
  simp only [List.mem_cons, List.not_mem_nil, or_false] at hx
  rcases hx with rfl | rfl | rfl <;> exact ⟨rfl, rfl, by decide, fun _ => rfl⟩

theorem test_witness_LinkFailureEndsTheRequest : ∀ x ∈ [(0 : Fin 12), 11],
    Inv (runningXfer x (Vector.replicate 11 0) (.oracle [.fail])) ∧
      resetAsserted (runningXfer x (Vector.replicate 11 0) (.oracle [.fail])) = false ∧
      (runningXfer x (Vector.replicate 11 0) (.oracle [.fail])).ph = .xchg ∧
      peerReply (runningXfer x (Vector.replicate 11 0) (.oracle [.fail]))
        (outWord (runningXfer x (Vector.replicate 11 0) (.oracle [.fail]))) = .fail :=
  fun _ _ => ⟨runningXfer_inv _ _ _, rfl, rfl, rfl⟩

/-- A wrong start marker with a right end marker, and a right start marker with a wrong end marker (V8, V44). -/
theorem test_witness_FramingMismatchEndsTheRequest :
    let s := runningXfer 11 #v[0x5A01, 0x8100, 0, 0, 0, 0, 0, 0, 0, 0, 0] (.oracle [.ok 0x5AF2])
    Inv s ∧ resetAsserted s = false ∧ s.ph = .xchg ∧ s.xi = 11 ∧ s.tgt = some .trg ∧
      peerReply s s.cfg.nullWord = .ok 0x5AF2 ∧ (s.resp[s.mi][0] ≠ s.cfg.som .trg ∨ 0x5AF2#16 ≠ s.cfg.eom .trg) :=
  ⟨runningXfer_inv _ _ _, rfl, rfl, rfl, rfl, rfl, .inl (by decide)⟩

theorem test_witness_FramingMismatchEndsTheRequest_end :
    let s := runningXfer 11 #v[0x5A02, 0x8100, 0, 0, 0, 0, 0, 0, 0, 0, 0] (.oracle [.ok 0x0000])
    Inv s ∧ resetAsserted s = false ∧ s.ph = .xchg ∧ s.xi = 11 ∧ s.tgt = some .trg ∧
      peerReply s s.cfg.nullWord = .ok 0x0000 ∧ (s.resp[s.mi][0] ≠ s.cfg.som .trg ∨ 0x0000#16 ≠ s.cfg.eom .trg) :=
  ⟨runningXfer_inv _ _ _, rfl, rfl, rfl, rfl, rfl, .inr (by decide)⟩

theorem test_witness_NextMessageIsStarted :
    let s := runningTmsend 11 #v[0x5A02, 0xA000, 0, 0, 0, 0, 0, 0, 0, 0, 0] (.oracle [.ok 0x5AF2])
    Inv s ∧ resetAsserted s = false ∧ s.ph = .xchg ∧ s.xi = 11 ∧ s.tgt = some .trg ∧
      peerReply s s.cfg.nullWord = .ok 0x5AF2 ∧ s.resp[s.mi][0] = s.cfg.som .trg ∧ 0x5AF2#16 = s.cfg.eom .trg ∧
      s.mi.val + 1 < s.nmsg.val :=
  ⟨runningTmsend_inv _ _ _, rfl, rfl, rfl, rfl, rfl, rfl, rfl, by decide⟩

theorem test_witness_LastMessageEndsTheRequest :
    let s := runningXfer 11 #v[0x5A02, 0x8100, 0, 0, 0, 0, 0, 0, 0, 0, 0] (.oracle [.ok 0x5AF2])
    Inv s ∧ resetAsserted s = false ∧ s.ph = .xchg ∧ s.xi = 11 ∧ s.tgt = some .trg ∧
      peerReply s s.cfg.nullWord = .ok 0x5AF2 ∧ s.resp[s.mi][0] = s.cfg.som .trg ∧ 0x5AF2#16 = s.cfg.eom .trg ∧
      s.nmsg.val ≤ s.mi.val + 1 ∧ s.opr ≠ 0x7#4 :=
  ⟨runningXfer_inv _ _ _, rfl, rfl, rfl, rfl, rfl, rfl, rfl, by decide, by decide⟩

/-- The clause of the same statement about `HPCAP`. -/
theorem test_witness_LastMessageEndsTheRequest_hpcap :
    let s := endingHpcap
    Inv s ∧ resetAsserted s = false ∧ s.ph = .xchg ∧ s.xi = 11 ∧ s.tgt = some .trg ∧
      peerReply s s.cfg.nullWord = .ok 0x5AF2 ∧ s.resp[s.mi][0] = s.cfg.som .trg ∧ 0x5AF2#16 = s.cfg.eom .trg ∧
      s.nmsg.val ≤ s.mi.val + 1 ∧ s.opr = 0x7#4 :=
  ⟨endingHpcap_inv, rfl, rfl, rfl, rfl, rfl, rfl, rfl, by decide, rfl⟩

theorem test_witness_ResetPutsEveryRegisterBack : resetAsserted { endingHpcap with rst := [true] } = true := rfl

/-- For a request's only message, and for one that another follows. -/
theorem test_witness_WellBehavedMessageDelivers :
    (let s := runningXfer 0 (Vector.replicate 11 0) (.oracle (goodAnswers refCfg .trg 0x8100 7 testPayload ++ [.fail]));
      Inv s ∧ RstQuiet s ∧ s.ph = .xchg ∧ s.xi = 0 ∧ s.tgt = some .trg ∧
      (∃ msg, (msgs s)[s.mi.val]? = some msg ∧
        s.peer = .oracle (goodAnswers s.cfg .trg msg.cw 7 testPayload ++ [.fail])) ∧ s.nmsg.val ≤ s.mi.val + 1) ∧
    (let s := runningTmsend 0 (Vector.replicate 11 0) (.oracle (goodAnswers refCfg .trg 0xA000 7 testPayload ++ []));
      Inv s ∧ RstQuiet s ∧ s.ph = .xchg ∧ s.xi = 0 ∧ s.tgt = some .trg ∧
      (∃ msg, (msgs s)[s.mi.val]? = some msg ∧
        s.peer = .oracle (goodAnswers s.cfg .trg msg.cw 7 testPayload ++ [])) ∧ s.mi.val + 1 < s.nmsg.val) := by
  refine ⟨⟨runningXfer_inv _ _ _, runningXfer_quiet _ _ _, rfl, rfl, rfl, ⟨_, rfl, rfl⟩, by decide⟩,
    runningTmsend_inv _ _ _, ?_, rfl, rfl, rfl, ⟨_, rfl, rfl⟩, by decide⟩
  intro b hb; cases hb

theorem test_witness_LoopbackReturnsTheMessage :
    (let s := runningXfer 0 (Vector.replicate 11 0) (.loopback 0xBEEF);
      Inv s ∧ RstQuiet s ∧ s.ph = .xchg ∧ s.xi = 0 ∧ s.tgt = some .trg ∧ (∃ msg, (msgs s)[s.mi.val]? = some msg) ∧
      s.peer = .loopback 0xBEEF ∧ s.nmsg.val ≤ s.mi.val + 1) ∧
    (let s := runningTmsend 0 (Vector.replicate 11 0) (.loopback 0xBEEF);
      Inv s ∧ RstQuiet s ∧ s.ph = .xchg ∧ s.xi = 0 ∧ s.tgt = some .trg ∧ (∃ msg, (msgs s)[s.mi.val]? = some msg) ∧
      s.peer = .loopback 0xBEEF ∧ s.mi.val + 1 < s.nmsg.val) := by
  refine ⟨⟨runningXfer_inv _ _ _, runningXfer_quiet _ _ _, rfl, rfl, rfl, ⟨_, rfl⟩, rfl, by decide⟩,
    runningTmsend_inv _ _ _, ?_, rfl, rfl, rfl, ⟨_, rfl⟩, rfl, by decide⟩
  intro b hb; cases hb

/-- An `XFER` with no wait, and one of an analog readback. -/
theorem test_witness_XferRunsToItsEnd : ∀ v ∈ [(0x8100#16, Controller.trg), (0x30FF#16, Controller.hk)],
    let s := idleWith [0x0001 :: v.1 :: testPayload.toList] (.oracle (goodAnswers refCfg v.2 v.1 7 testPayload ++ []))
    Inv s ∧ RstQuiet s ∧ s.ph = .idle ∧ s.reqs = [0x0001 :: v.1 :: testPayload.toList] ∧ routeOf s.cfg v.1 = some v.2 ∧
      s.peer = .oracle (goodAnswers s.cfg v.2 v.1 7 testPayload ++ []) := by
  intro v hv
  refine ⟨idleWith_inv _ _, idleWith_quiet _ _, rfl, rfl, ?_, rfl⟩
  show routeOf refCfg v.1 = some v.2
  revert v; decide

theorem test_witness_HpcapStoresTheCapturesReversed :
    let p : Peer := .oracle (goodAnswers refCfg .trg (refCfg.op .trHit0) 0 testPayload ++
      goodAnswers refCfg .trg (refCfg.op .trHit1) 0 testPayload ++ goodAnswers refCfg .trg (refCfg.op .trHit2) 0 testPayload ++
      goodAnswers refCfg .trg (refCfg.op .trHit3) 0 testPayload ++ [])
    let s := idleWith [[0x0007]] p
    Inv s ∧ RstQuiet s ∧ s.ph = .idle ∧ s.reqs = [[0x0007]] ∧ s.cfg = refCfg ∧ s.peer = p :=
  ⟨idleWith_inv _ _, idleWith_quiet _ _, rfl, rfl, rfl, rfl⟩

theorem test_witness_TmsendReadsBackUnderLoopback :
    let s := idleWith [[0x0006]] (.loopback 0)
    Inv s ∧ RstQuiet s ∧ s.ph = .idle ∧ s.reqs = [[0x0006]] ∧ s.peer = .loopback 0 :=
  ⟨idleWith_inv _ _, idleWith_quiet _ _, rfl, rfl, rfl⟩

theorem test_witness_SynchsSendsTheHandshake :
    let p : Peer := .oracle (goodAnswers refCfg .trg (refCfg.op .trTack) 0 testPayload ++
      goodAnswers refCfg .trg (refCfg.op .trSched) 0 testPayload ++ goodAnswers refCfg .trg (refCfg.op .trCntrst) 0 testPayload ++
      goodAnswers refCfg .trg (refCfg.op .trTack) 0 testPayload ++ [])
    let s := idleWith [[0x000B, 0, 0, 0, 4]] p
    Inv s ∧ RstQuiet s ∧ s.ph = .idle ∧ s.reqs = [[0x000B, 0, 0, 0, 4]] ∧ s.cfg = refCfg ∧ s.peer = p :=
  ⟨idleWith_inv _ _, idleWith_quiet _ _, rfl, rfl, rfl, rfl⟩

theorem test_witness_EveryRequestEnds :
    (let s := runningTmsend 0 (Vector.replicate 11 0) (.oracle []);
      Inv s ∧ RstQuiet s ∧ s.ph ≠ .idle ∧ s.opr = 0x6#4) ∧
    (let s := runningXfer 0 (Vector.replicate 11 0) (.oracle []);
      Inv s ∧ RstQuiet s ∧ s.ph ≠ .idle ∧ s.opr = 0x1#4) := by
  refine ⟨⟨runningTmsend_inv _ _ _, ?_, by decide, rfl⟩, runningXfer_inv _ _ _, runningXfer_quiet _ _ _, by decide, rfl⟩
  intro b hb; cases hb

theorem test_witness_EveryStepKeepsTheInvariant :
    let s := runningXfer 0 (Vector.replicate 11 0) (.loopback 0)
    Inv s ∧ ∃ t, step s = .next t := ⟨runningXfer_inv _ _ _, _, rfl⟩

theorem test_witness_InvariantStatesNeverStop :
    let s := idleWith [[0x0000]] (.oracle [])
    Inv s ∧ (resetAsserted s = false → s.ph = .idle → ∀ q rest, s.reqs = q :: rest →
      decode s.cfg q ≠ .error .badLength ∧ decode s.cfg q ≠ .error .empty) := by
  refine ⟨idleWith_inv _ _, fun _ _ q rest h => ?_⟩
  have h : [[0x0000#16]] = q :: rest := h
  cases h
  decide

theorem test_witness_ConfigurationNeverChanges : ∃ t, step (presented [0x0003]) = .next t := ⟨_, rfl⟩

/-- A step that changes `MASK`, and one that changes `DECR0`. -/
theorem test_witness_MaskAndDecodeResultHaveTheirWriters :
    (let s := presented [0x0004, 0, 0, 0];
      resetAsserted s = false ∧ after (step s) (fun t => t.mask != s.mask) = some true) ∧
    (let s := presented [0x0002, 0x3102];
      resetAsserted s = false ∧ after (step s) (fun t => t.decr0 != s.decr0) = some true) := by decide

theorem test_witness_HitPatternIsWrittenByCaptureOnly :
    resetAsserted endingHpcap = false ∧ after (step endingHpcap) (fun t => t.hp[7] != endingHpcap.hp[7]) = some true := by
  decide

/-- A step in each phase. -/
theorem test_witness_HistoryRecordsEachStepOnce :
    (resetAsserted State.reset = false ∧ State.reset.ph = .idle ∧ ∃ t, step State.reset = .next t) ∧
    (resetAsserted waitingVolt = false ∧ waitingVolt.ph = .settle ∧ after (step waitingVolt) State.ph = some .xchg) ∧
    (resetAsserted endingHpcap = false ∧ endingHpcap.ph = .xchg ∧ after (step endingHpcap) State.ph = some .idle) :=
  ⟨⟨rfl, rfl, _, rfl⟩, by decide, by decide⟩

/-- A step that takes an answer, and one that takes none. -/
theorem test_witness_StepsIgnoreLaterAnswers :
    after (step { runningXfer 0 (Vector.replicate 11 0) (.loopback 0) with peer := .oracle [.ok 1, .ok 2] }) State.peer =
      some (.oracle [.ok 2]) ∧
    after (step { presented [0x0003] with peer := .oracle [.ok 1, .ok 2] }) State.peer = some (.oracle [.ok 1, .ok 2]) := by
  decide

/-- A running engine; a valid buffer; a link failure on exchange 5 of message 0, which leaves positions 0 to 3 of `RESP[0]` readable
(V5) and position 4 not. -/
theorem test_witness_ResponsesAreReadableWhenReceived :
    statBusy endingHpcap.stat = true ∧
    (let s := { State.reset with stat := 0x0002, respv := #v[true, false, false, false] };
      statBusy s.stat = false ∧ s.respv[(0 : Fin 4)] = true) ∧
    (let s := { State.reset with stat := 0x5006 };
      statBusy s.stat = false ∧ s.respv[(0 : Fin 4)] = false ∧ statErr s.stat = 1#3 ∧ (statEmsg s.stat).toNat = (0 : Fin 4).val ∧
        (3 : Fin 11).val + 2 ≤ (statEpos s.stat).toNat ∧ ¬((4 : Fin 11).val + 2 ≤ (statEpos s.stat).toNat)) := by decide

/-- An idle engine that holds a capture and four valid responses. -/
theorem test_witness_ResultsAreReadableWhenIdle :
    let s := { State.reset with stat := 0x0002, respv := Vector.replicate 4 true, hpv := true }
    statBusy s.stat = false ∧ s.respv[(0 : Fin 4)] = true ∧ s.respv[(3 : Fin 4)] = true ∧ s.hpv = true := by decide

/-- A command word of each format: the four analog readbacks, presence, a mask bank, a hit quadrant, a raw one, an unknown one. -/
theorem test_witness_ResponseDataFormats :
    [0x3002#16, 0x3103#16, 0x3200#16, 0x3300#16, 0x2000#16, 0xA001#16, 0xB003#16, 0x8100#16, 0x7000#16].map (classify refCfg) =
      [some .hkVolt, some .hkCurr, some .hkEnv, some .hkBrd, some .hkPres, some .trMask1, some .trHit3, some .trNsrd, none] := by
  decide

theorem test_witness_AnalogValuesAreExactProducts : refCfg.wf = true := test_wf_reference
end

section
/-! SUPPORT. The invariant, rule by rule: what establishes it for an idle and for a running engine, what each kind of step keeps
of it, and the two obligations about it. -/

namespace Sys2Proof.Machine

/-! ### The parts of the invariant -/

/-- What `DECR1` may hold (R27). -/
def DecrLegal (w : Word) : Prop := decrZero w = 0#5 ∧ (decrCls w).toNat ≤ 33 ∧ (decrTgtd w).toNat ≤ 2

/-- The part of the invariant that does not speak of the sequencer. -/
def RegistersLegal (s : State) : Prop := s.cfg.wf = true ∧ 1 ≤ s.nmsg.val ∧ DecrLegal s.decr1

theorem Inv.registersLegal {s : State} (h : Inv s) : RegistersLegal s :=
  ⟨h.cfgWf, h.nmsgPos, h.decrZero, h.decrCls, h.decrTgtd⟩

theorem RegistersLegal.congr {s t : State} (h : RegistersLegal s) (hc : t.cfg = s.cfg) (hn : t.nmsg = s.nmsg)
    (hd : t.decr1 = s.decr1) : RegistersLegal t := by
  rwa [RegistersLegal, hc, hn, hd]

theorem inv_of_idle {s : State} (hr : RegistersLegal s) (hp : s.ph = .idle) (hs : IdleStat s.stat) (hm : s.mi = 0)
    (hx : s.xi = 0) : Inv s := by
  obtain ⟨hc, hn, hz, hk, ht⟩ := hr
  exact ⟨hc, hn, hz, hk, ht, fun _ => ⟨hs, hm, hx⟩, fun h => absurd hp h⟩

theorem inv_of_running {s : State} (hr : RegistersLegal s) (hp : s.ph ≠ .idle) (h : Running s) : Inv s := by
  obtain ⟨hc, hn, hz, hk, ht⟩ := hr
  exact ⟨hc, hn, hz, hk, ht, fun hi => absurd hi hp, fun _ => h⟩

/-- An idle engine that stays idle keeps the invariant when what it writes into `STAT` is legal. -/
theorem Inv.stays_idle {s t : State} (h : Inv s) (hp : s.ph = .idle) (hr : RegistersLegal t) (hs : IdleStat t.stat)
    (hph : t.ph = s.ph) (hm : t.mi = s.mi) (hx : t.xi = s.xi) : Inv t := by
  obtain ⟨-, hmi, hxi⟩ := h.idle hp
  exact inv_of_idle hr (hph.trans hp) hs (hm.trans hmi) (hx.trans hxi)

theorem Inv.runs_in_settle {s : State} (h : Inv s) (hp : s.ph = .settle) : Running s := h.running (by simp [hp])

theorem Inv.runs_in_xchg {s : State} (h : Inv s) (hp : s.ph = .xchg) : Running s := h.running (by simp [hp])

/-- The ports `RST` and `REQ` are no part of the invariant. -/
theorem Running.of_ports {s : State} (h : Running s) (q : List (List Word)) (r : List Bool) :
    Running { s with reqs := q, rst := r } :=
  ⟨h.stat, h.count, h.current, h.framed, h.routable, h.valid, h.settle⟩

theorem Inv.of_ports {s : State} (h : Inv s) (q : List (List Word)) (r : List Bool) : Inv { s with reqs := q, rst := r } :=
  ⟨h.cfgWf, h.nmsgPos, h.decrZero, h.decrCls, h.decrTgtd, h.idle, fun hp => (h.running hp).of_ports q r⟩

theorem Inv.of_tickReset {s : State} (h : Inv s) : Inv (tickReset s) := h.of_ports s.reqs s.rst.tail

theorem Inv.of_takeRequest {s : State} (h : Inv s) : Inv (takeRequest s) := h.of_ports s.reqs.tail s.rst

/-! ### `DECR1` -/

theorem decrLegal_reset : DecrLegal 0x0000#16 := by unfold DecrLegal; decide

/-- The number of a class is 1 to 33 (R80). -/
theorem cmdClass_id_le (k : CmdClass) : k.id ≤ 33 := k.index.isLt

theorem decrLegal_decodeResult (c : Cfg) (cw : Word) : DecrLegal (decodeResult c cw) := by
  obtain ⟨hk, ht, -, -, -, hz⟩ := decodeResult_fields c cw
  refine ⟨hz, ?_, ?_⟩
  · rw [hk]
    cases classify c cw with
    | none => exact Nat.zero_le _
    | some k => exact cmdClass_id_le k
  · rw [ht]
    rcases routeOf c cw with _ | _ | _ <;> decide

/-! ### Reset -/

theorem inv_resetBlock {s : State} (h : s.cfg.wf = true) : Inv (resetBlock s) :=
  inv_of_idle ⟨h, by show 1 ≤ (1 : Fin 5).val; decide, decrLegal_reset⟩ rfl idleStat_reset rfl rfl

theorem refCfg_wf : refCfg.wf = true := by decide

theorem resetBlock_reset : resetBlock State.reset = State.reset := rfl

/-! ### A running engine -/

/-- A step that stays in the current message leaves the engine running: only the phase, `XI` and the response words move. -/
theorem Running.to_xchg {s t : State} (h : Running s) (hp : t.ph = .xchg) (hmsgs : msgs t = msgs s) (hc : t.cfg = s.cfg)
    (hs : t.stat = s.stat) (hn : t.nmsg = s.nmsg) (hm : t.mi = s.mi) (htgt : t.tgt = s.tgt) (htx : t.tx = s.tx)
    (hv : t.respv = s.respv) : Running t where
  stat := by rw [hs]; exact h.stat
  count := by rw [hmsgs, hn]; exact h.count
  current := by rw [hm, hn]; exact h.current
  framed := by
    obtain ⟨msg, u, hmsg, hroute, hto, hwords⟩ := h.framed
    exact ⟨msg, u, by rw [hmsgs, hm, hmsg], by rw [hc, hroute], by rw [htgt, hto], by rw [htx, hc, hwords]⟩
  routable := by rw [hmsgs, hc]; exact h.routable
  valid := by rw [hv, hm]; exact h.valid
  settle := fun hsettle => by rw [hp] at hsettle; cases hsettle

theorem msgs_frameMessage (u : Controller) (msg : Msg) (s : State) : msgs (frameMessage u msg s) = msgs s := rfl

theorem frameMessage_ph_ne_idle (u : Controller) (msg : Msg) (s : State) : (frameMessage u msg s).ph ≠ .idle := by
  rw [frameMessage_ph]; split <;> simp

/-- `StartMessage` leaves the engine running at the beginning of the current message (R102). -/
theorem running_frameMessage {s : State} {msg : Msg} {u : Controller} (hs : s.stat = 0x0001#16 ∨ s.stat = 0x0021#16)
    (hcount : (msgs s).length = s.nmsg.val) (hm : (msgs s)[s.mi.val]? = some msg) (hr : routeOf s.cfg msg.cw = some u)
    (hall : ∀ m ∈ msgs s, (routeOf s.cfg m.cw).isSome = true) (hv : ∀ m : Fin 4, s.respv[m] = decide (m.val < s.mi.val)) :
    Running (frameMessage u msg s) where
  stat := hs
  count := hcount
  current := by
    obtain ⟨hlt, -⟩ := List.getElem?_eq_some_iff.mp hm
    exact hcount ▸ hlt
  framed := ⟨msg, u, hm, hr, rfl, rfl⟩
  routable := hall
  valid := hv
  settle := fun hp => by
    have hpre : msg.pre.isSome = true := by
      by_contra hnone
      rw [frameMessage_ph, if_neg hnone] at hp
      cases hp
    refine ⟨rfl, ?_⟩
    rw [msgs_frameMessage, frameMessage_mi, hm]
    exact hpre

/-- `STAT` while a request runs, after the command-echo check (R106). -/
theorem echoCheck_running {s : State} (h : s.stat = 0x0001#16 ∨ s.stat = 0x0021#16) :
    (echoCheck s).stat = 0x0001#16 ∨ (echoCheck s).stat = 0x0021#16 := by
  rw [echoCheck_stat]
  split
  · exact .inr (setEcho_running h)
  · exact h

theorem idleStat_complete {w : Word} (h : w = 0x0001#16 ∨ w = 0x0021#16) : IdleStat (completeStat w) := by
  rw [completeStat_running h]
  split
  · exact idleStat_doneEcho
  · exact idleStat_done

/-- Marking buffer `m` valid when the ones before it are makes exactly the buffers up to `m` valid (R105). -/
theorem respv_set_next {v : Vector Bool 4} {m n : Fin 4} (hv : ∀ k : Fin 4, v[k] = decide (k.val < m.val))
    (hn : n.val = m.val + 1) (k : Fin 4) : (v.set m.val true)[k] = decide (k.val < n.val) := by
  have hk := hv k
  simp only [Fin.getElem_fin] at hk ⊢
  rw [Vector.getElem_set, hk]
  split
  · simp; omega
  · simp only [decide_eq_decide]; omega

/-! ### Acceptances -/

theorem messageCount_beginLink (code : BitVec 4) (ops : List Word) (s : State) :
    (beginLink code ops s).nmsg.val = (msgs (beginLink code ops s)).length := messageCount_val _

/-- The acceptance of a link request starts the engine on its first message (R100). -/
theorem inv_started {s : State} (h : Inv s) {code : BitVec 4} {ops : List Word} {msg : Msg} {u : Controller}
    (hm : (msgs (beginLink code ops s))[0]? = some msg) (hr : routeOf s.cfg msg.cw = some u)
    (hall : ∀ m ∈ msgs (beginLink code ops s), (routeOf s.cfg m.cw).isSome = true) :
    Inv (frameMessage u msg (beginLink code ops s)) := by
  have hcount := messageCount_beginLink code ops s
  obtain ⟨hpos, -⟩ := List.getElem?_eq_some_iff.mp hm
  obtain ⟨hc, -, hd⟩ := h.registersLegal
  refine inv_of_running ⟨hc, ?_, hd⟩ (frameMessage_ph_ne_idle _ _ _)
    (running_frameMessage (.inl statRunning_eq) hcount.symm hm hr hall ?_)
  · rw [frameMessage_nmsg, hcount]; exact hpos
  · intro m; simp

theorem exec_keeps_inv {i : Instr} {s t : State} (h : Inv s) (he : exec i s = .next t) : Inv t := by
  obtain ⟨hc, hn, hd⟩ := h.registersLegal
  cases exec_accepted he with
  | held => exact h
  | refused hp => exact h.stays_idle hp ⟨hc, hn, hd⟩ idleStat_invalid rfl rfl rfl
  | decoded hp cw => exact h.stays_idle hp ⟨hc, hn, decrLegal_decodeResult _ _⟩ idleStat_done rfl rfl rfl
  | built hp => exact h.stays_idle hp ⟨hc, hn, hd⟩ idleStat_done rfl rfl rfl
  | started hp code ops msg u hm hr ha => exact inv_started h hm hr (ha hc)

/-! ### Exchanges -/

/-- The last exchange of a message that another one follows leaves the engine running on that one (R107). -/
theorem inv_continued {s : State} (h : Inv s) (hp : s.ph = .xchg) {w r : Word} {msg : Msg} {u : Controller} {m : Fin 4}
    (he : m.val = s.mi.val + 1) (hm : (msgs s)[m.val]? = some msg) (hr : routeOf s.cfg msg.cw = some u) :
    Inv (frameMessage u msg (setMi m (echoCheck (received w r (tickReset s))))) := by
  have hrun := h.runs_in_xchg hp
  have hmsgs : msgs (setMi m (echoCheck (received w r (tickReset s)))) = msgs s := by apply msgs_congr <;> simp
  refine inv_of_running (h.registersLegal.congr (by simp) (by simp) (by simp)) (frameMessage_ph_ne_idle _ _ _)
    (running_frameMessage ?_ ?_ ?_ ?_ ?_ ?_)
  · exact echoCheck_running (by simpa using hrun.stat)
  · rw [hmsgs]; simpa using hrun.count
  · rw [hmsgs]; exact hm
  · simpa using hr
  · rw [hmsgs]; simpa using hrun.routable
  · simpa using respv_set_next hrun.valid he

/-- The step lemma of the invariant, by the kinds of a step. -/
theorem step_keeps_inv {s t : State} (h : Inv s) (hs : step s = .next t) : Inv t := by
  have hr := h.registersLegal
  cases step_cases hs with
  | reset => exact inv_resetBlock h.cfgWf
  | waited => exact h.of_tickReset
  | reserved _ hp => exact h.stays_idle hp (hr.congr rfl rfl rfl) idleStat_invalid rfl rfl rfl
  | accepted _ _ _ _ _ _ _ _ he => exact exec_keeps_inv h.of_tickReset.of_takeRequest he
  | settled _ hp d =>
    exact inv_of_running (hr.congr rfl rfl rfl) (by simp)
      ((h.runs_in_settle hp).to_xchg rfl rfl rfl rfl rfl rfl rfl rfl rfl)
  | failed _ hp =>
    exact inv_of_idle (hr.congr rfl rfl rfl) rfl (idleStat_link (h.runs_in_xchg hp).stat _ _) rfl rfl
  | stored _ hp w r =>
    refine inv_of_running (hr.congr (by simp) (by simp) (by simp)) (by simp [hp])
      ((h.runs_in_xchg hp).to_xchg (by simp [hp]) (by apply msgs_congr <;> simp) ?_ ?_ ?_ ?_ ?_ ?_ ?_) <;> simp
  | mismatched _ hp _ w r sbad ebad hb =>
    have hstat := echoCheck_running (s := received w r (tickReset s)) (by simpa using (h.runs_in_xchg hp).stat)
    refine inv_of_idle (hr.congr (by simp) (by simp) (by simp)) rfl ?_ rfl rfl
    rw [raiseError_stat]
    exact idleStat_framing hstat sbad ebad hb _ _
  | continued _ hp _ w r msg u m he _ hm hroute => exact inv_continued h hp he hm hroute
  | finished _ hp _ w r =>
    have hstat := echoCheck_running (s := received w r (tickReset s)) (by simpa using (h.runs_in_xchg hp).stat)
    refine inv_of_idle (hr.congr (by simp) (by simp) (by simp)) (finishRequest_ph _) ?_ (finishRequest_mi _)
      (finishRequest_xi _)
    rw [finishRequest_stat]
    exact idleStat_complete hstat

/-! ### The obligations -/

/-- Settles O43, by the kinds of a step. -/
theorem everyStepKeepsTheInvariant : Obligations.EveryStepKeepsTheInvariant :=
  fun _ _ => step_keeps_inv

/-- Settles O42: the state after reset is what a reset step leaves under `REFCFG`, which is well formed. -/
theorem invariantHoldsAtReset : Obligations.InvariantHoldsAtReset := by
  unfold Obligations.InvariantHoldsAtReset
  rw [← resetBlock_reset]
  exact inv_resetBlock refCfg_wf

end Sys2Proof.Machine
end

section
/-! SUPPORT. Which step writes `MASK`, `DECR0`, `DECR1` and `HP`, and the two obligations about it. -/

namespace Sys2Proof.Machine

/-! ### Acceptances -/

/-- An accepted request is held, refused with only `STAT` changed, or run. -/
theorem accept_next {s t : State} {valid : Bool} {run : State → Result} (h : accept valid run s = .next t) :
    t = s ∨ t = { s with stat := 0x000E#16 } ∨ run s = .next t := by
  by_cases hp : s.ph = .idle
  · cases valid
    · rw [accept_invalid hp] at h; cases h; exact .inr (.inl rfl)
    · rw [accept_valid hp] at h; exact .inr (.inr h)
  · rw [accept_held hp] at h; cases h; exact .inl rfl

theorem acceptLink_keeps_mask_decr {s t : State} {valid : Bool} {code : BitVec 4} {ops : List Word}
    (h : acceptLink valid code ops s = .next t) : t.mask = s.mask ∧ t.decr0 = s.decr0 ∧ t.decr1 = s.decr1 := by
  rcases accept_next h with rfl | rfl | hrun
  · exact ⟨rfl, rfl, rfl⟩
  · exact ⟨rfl, rfl, rfl⟩
  · obtain ⟨msg, u, -, -, rfl⟩ := startMessage_next hrun
    exact ⟨rfl, rfl, rfl⟩

theorem acceptPure_mask_keeps_decr {s t : State} {valid : Bool} {code : BitVec 4} {ops : List Word} {m : Vector Word 32}
    (h : acceptPure valid code ops (fun s => { s with mask := m }) s = .next t) : t.decr0 = s.decr0 ∧ t.decr1 = s.decr1 := by
  rcases accept_next h with rfl | rfl | hrun
  · exact ⟨rfl, rfl⟩
  · exact ⟨rfl, rfl⟩
  · cases hrun; exact ⟨rfl, rfl⟩

theorem execDec_keeps_mask {s t : State} {cw : Word} (h : execDec cw s = .next t) : t.mask = s.mask := by
  unfold execDec at h
  rcases accept_next h with rfl | rfl | hrun
  · rfl
  · rfl
  · cases hrun; rfl

/-- The instructions that write `MASK` (R25). -/
def WritesMask (i : Instr) : Prop := i = .tmdef ∨ (∃ a b c, i = .tmsgl a b c) ∨ ∃ a b, i = .tmblk a b

theorem exec_mask_writer {i : Instr} {s t : State} (h : exec i s = .next t) (hm : t.mask ≠ s.mask) : WritesMask i := by
  cases i with
  | tmdef => exact .inl rfl
  | tmsgl slot asic group => exact .inr (.inl ⟨slot, asic, group, rfl⟩)
  | tmblk vlo vhi => exact .inr (.inr ⟨vlo, vhi, rfl⟩)
  | dec cw => exact absurd (execDec_keeps_mask h) hm
  | _ => exact absurd (acceptLink_keeps_mask_decr h).1 hm

theorem exec_decr_writer {i : Instr} {s t : State} (h : exec i s = .next t)
    (hd : t.decr0 ≠ s.decr0 ∨ t.decr1 ≠ s.decr1) : ∃ cw, i = .dec cw := by
  have hkept : ¬ (t.decr0 = s.decr0 ∧ t.decr1 = s.decr1) := by tauto
  cases i with
  | dec cw => exact ⟨cw, rfl⟩
  | tmdef => exact absurd (acceptPure_mask_keeps_decr (m := defaultMask) h) hkept
  | tmsgl slot asic group => exact absurd (acceptPure_mask_keeps_decr (m := singleMask slot asic group) h) hkept
  | tmblk vlo vhi => exact absurd (acceptPure_mask_keeps_decr (m := bulkMask (bulkVector vlo vhi)) h) hkept
  | _ => exact absurd (acceptLink_keeps_mask_decr h).2 hkept

/-- No acceptance touches `HP` (R26). -/
theorem exec_keeps_hp {i : Instr} {s t : State} (h : exec i s = .next t) : t.hp = s.hp := by
  cases exec_accepted h <;> rfl

/-! ### Steps -/

/-- A step without reset that accepts no request leaves `MASK`, `DECR0` and `DECR1` as they are. -/
theorem step_accepts_or_keeps {s t : State} (hr : resetAsserted s = false) (h : step s = .next t) :
    (s.ph = .idle ∧ ∃ q rest i, s.reqs = q :: rest ∧ decode s.cfg q = .ok i ∧ exec i (takeRequest (tickReset s)) = .next t) ∨
    (t.mask = s.mask ∧ t.decr0 = s.decr0 ∧ t.decr1 = s.decr1) := by
  cases step_cases h with
  | reset ha => rw [hr] at ha; cases ha
  | accepted _ hp q rest i hq hd _ he => exact .inl ⟨hp, q, rest, i, hq, hd, he⟩
  | _ => exact .inr (by simp)

/-- Settles O46, by the instruction the step accepts. -/
theorem maskAndDecodeResultHaveTheirWriters : Obligations.MaskAndDecodeResultHaveTheirWriters := by
  intro s t hr h
  rcases step_accepts_or_keeps hr h with ⟨hp, q, rest, i, hq, hd, he⟩ | ⟨hm, h0, h1⟩
  · refine ⟨fun hm => ⟨hp, q, rest, i, hq, hd, exec_mask_writer he hm⟩, fun hdecr => ⟨hp, q, rest, ?_⟩⟩
    obtain ⟨cw, rfl⟩ := exec_decr_writer he hdecr
    exact ⟨cw, hq, hd⟩
  · exact ⟨fun hne => absurd hm hne, fun hne => hne.elim (absurd h0) (absurd h1)⟩

/-- Settles O47, by the kinds of a step: only the end of a request without error can write `HP`. -/
theorem hitPatternIsWrittenByCaptureOnly : Obligations.HitPatternIsWrittenByCaptureOnly := by
  intro s t hr h hne
  cases step_cases h with
  | reset ha => rw [hr] at ha; cases ha
  | accepted _ _ _ _ _ _ _ _ he => exact absurd (exec_keeps_hp he) hne
  | finished _ hp hx w r hn =>
    have hcap : isHpcap s.opr = true := by
      by_contra hno
      exact hne (by simp [hno])
    exact ⟨hp, by simpa [isHpcap] using hcap, hx, hn, by simp [hcap], finishRequest_ph _⟩
  | _ => exact absurd (by simp) hne

end Sys2Proof.Machine
end

section
/-! SUPPORT. What a read of a response word yields, the views, and the two obligations about them. -/

namespace Sys2Proof.Machine

theorem respReadable_iff (s : State) (m : Fin 4) (p : Fin 11) : respReadable s m p = true ↔
    s.respv[m] = true ∨
      (statErr s.stat = 1#3 ∧ (statEmsg s.stat).toNat = m.val ∧ p.val + 2 ≤ (statEpos s.stat).toNat) := by
  simp [respReadable, and_assoc]

/-- Settles O50: the three clauses are the cases of a guarded read. -/
theorem responsesAreReadableWhenReceived : Obligations.ResponsesAreReadableWhenReceived := by
  intro s m p any
  refine ⟨fun hb hv => ?_, fun hb => ?_, fun _ hv hlink => ?_⟩
  · exact readWhere_of_valid ((respReadable_iff s m p).mpr hv) hb _ _
  · exact readWhere_of_open (.inr hb) _ _
  · refine readWhere_of_open (.inl (Bool.eq_false_iff.mpr fun hr => ?_)) _ _
    rcases (respReadable_iff s m p).mp hr with hvalid | hreceived
    · rw [hv] at hvalid; cases hvalid
    · exact hlink hreceived

/-- The mask readback at place `8b + j` is response word `2 + j` of bank `b` (R31, R178). -/
theorem rdbk_bank (s : State) (b : Fin 4) (j : Fin 8) :
    (rdbk s)[8 * b.val + j.val]'(by omega) = s.resp[b][2 + j.val]'(by omega) := by
  have hq : (8 * b.val + j.val) / 8 = b.val := by omega
  have hp : (8 * b.val + j.val) % 8 = j.val := by omega
  simp [rdbk, respData, quadrantOf, dataPosOf, hq, hp]

/-- Settles O52. -/
theorem viewsAreFunctionsOfTheRegisters : Obligations.ViewsAreFunctionsOfTheRegisters :=
  ⟨rdbk_bank, fun _ => rfl, fun _ _ hresp hhp => ⟨congrArg respData hresp, congrArg lanes hhp⟩⟩

end Sys2Proof.Machine
end

section
/-! SUPPORT. What a step adds to the history and which answers of the peer it can depend on, and the two obligations about
it. -/

namespace Sys2Proof.Machine

/-! ### The history -/

/-- From `s` to `t` the link was not used: no event, no answer taken, no exchange counted. -/
def LinkUntouched (s t : State) : Prop := t.hist = s.hist ∧ t.peer = s.peer ∧ t.xcount = s.xcount

/-- From `s` to `t` there was one settle wait (R62). -/
def WaitRecorded (s t : State) : Prop := (∃ d, t.hist = s.hist ++ [.settle d]) ∧ t.peer = s.peer ∧ t.xcount = s.xcount

/-- From `s` to `t` there was one word exchange (R50). -/
def ExchangeRecorded (s t : State) : Prop := (∃ w a, t.hist = s.hist ++ [exchangeEvent w a]) ∧ t.xcount = s.xcount + 1

/-- No acceptance uses the link (R100). -/
theorem exec_link_untouched {i : Instr} {s t : State} (h : exec i s = .next t) : LinkUntouched s t := by
  cases exec_accepted h <;> exact ⟨rfl, rfl, rfl⟩

/-- The phase tells what a step without reset does to the link. -/
theorem step_link_cases {s t : State} (hr : resetAsserted s = false) (h : step s = .next t) :
    (s.ph = .idle ∧ LinkUntouched s t) ∨ (s.ph = .settle ∧ WaitRecorded s t) ∨ (s.ph = .xchg ∧ ExchangeRecorded s t) := by
  cases step_cases h with
  | reset ha => rw [hr] at ha; cases ha
  | waited _ hp => exact .inl ⟨hp, rfl, rfl, rfl⟩
  | reserved _ hp => exact .inl ⟨hp, rfl, rfl, rfl⟩
  | accepted _ hp _ _ _ _ _ _ he =>
    obtain ⟨hhist, hpeer, hcount⟩ := exec_link_untouched he
    exact .inl ⟨hp, hhist, hpeer, hcount⟩
  | settled _ hp d => exact .inr (.inl ⟨hp, ⟨d, rfl⟩, rfl, rfl⟩)
  | failed _ hp w => exact .inr (.inr ⟨hp, ⟨w, .fail, by simp⟩, by simp⟩)
  | stored _ hp w r => exact .inr (.inr ⟨hp, ⟨w, .ok r, by simp [exchangeEvent]⟩, by simp⟩)
  | mismatched _ hp _ w r => exact .inr (.inr ⟨hp, ⟨w, .ok r, by simp [exchangeEvent]⟩, by simp⟩)
  | continued _ hp _ w r => exact .inr (.inr ⟨hp, ⟨w, .ok r, by simp [exchangeEvent]⟩, by simp⟩)
  | finished _ hp _ w r => exact .inr (.inr ⟨hp, ⟨w, .ok r, by simp [exchangeEvent]⟩, by simp⟩)

/-- Settles O48, by the phase of the step. -/
theorem historyRecordsEachStepOnce : Obligations.HistoryRecordsEachStepOnce := by
  intro s t hr h
  rcases step_link_cases hr h with ⟨hp, hlink⟩ | ⟨hp, hlink⟩ | ⟨hp, hlink⟩
  · exact ⟨fun _ => hlink, by simp [hp], by simp [hp]⟩
  · exact ⟨by simp [hp], fun _ => hlink, by simp [hp]⟩
  · exact ⟨by simp [hp], by simp [hp], fun _ => hlink⟩

/-! ### The peer changed for another one

`setPeer` commutes with every operation but the exchange itself, so an operation that answers a next state answers the same one
for every peer. -/

/-- `s` before another peer. -/
def setPeer (p : Peer) (s : State) : State := { s with peer := p }

section
variable {p : Peer} {s t : State}

theorem startMessage_setPeer {n : Nat} (h : startMessage n s = .next t) :
    startMessage n (setPeer p s) = .next (setPeer p t) := by
  obtain ⟨msg, u, hm, hr, rfl⟩ := startMessage_next h
  exact startMessage_eq (s := setPeer p s) hm hr

theorem accept_setPeer {valid : Bool} {run : State → Result}
    (hrun : run s = .next t → run (setPeer p s) = .next (setPeer p t)) (h : accept valid run s = .next t) :
    accept valid run (setPeer p s) = .next (setPeer p t) := by
  by_cases hp : s.ph = .idle
  · cases valid
    · rw [accept_invalid hp] at h; cases h
      exact accept_invalid (s := setPeer p s) hp run
    · rw [accept_valid hp] at h
      rw [accept_valid (s := setPeer p s) hp]
      exact hrun h
  · rw [accept_held hp] at h; cases h
    exact accept_held (s := setPeer p s) hp valid run

theorem acceptPure_setPeer {valid : Bool} {code : BitVec 4} {ops : List Word} {e : State → State}
    (he : ∀ u, e (setPeer p u) = setPeer p (e u)) (h : acceptPure valid code ops e s = .next t) :
    acceptPure valid code ops e (setPeer p s) = .next (setPeer p t) := by
  refine accept_setPeer (fun hrun => ?_) h
  cases hrun
  exact congrArg (fun u : State => Host.Outcome.next { u with stat := statFinished }) (he (latch code ops (clearError s)))

theorem acceptLink_setPeer {valid : Bool} {code : BitVec 4} {ops : List Word} (h : acceptLink valid code ops s = .next t) :
    acceptLink valid code ops (setPeer p s) = .next (setPeer p t) :=
  accept_setPeer startMessage_setPeer h

theorem exec_setPeer {i : Instr} (h : exec i s = .next t) : exec i (setPeer p s) = .next (setPeer p t) := by
  cases i with
  | dec cw => exact acceptPure_setPeer (e := decEffect cw) (fun _ => rfl) h
  | tmdef => exact acceptPure_setPeer (e := fun s => { s with mask := defaultMask }) (fun _ => rfl) h
  | tmsgl slot asic group =>
    exact acceptPure_setPeer (e := fun s => { s with mask := singleMask slot asic group }) (fun _ => rfl) h
  | tmblk vlo vhi => exact acceptPure_setPeer (e := fun s => { s with mask := bulkMask (bulkVector vlo vhi) }) (fun _ => rfl) h
  | _ => exact acceptLink_setPeer h

theorem acceptDescriptor_setPeer {q : List Word} (h : acceptDescriptor q s = .next t) :
    acceptDescriptor q (setPeer p s) = .next (setPeer p t) := by
  have hcfg : (setPeer p s).cfg = s.cfg := rfl
  unfold acceptDescriptor at h ⊢
  rw [hcfg]
  split at h
  · exact exec_setPeer (s := takeRequest s) h
  · cases h; rfl
  · cases h
  · cases h

theorem idleStep_setPeer (h : idleStep s = .next t) : idleStep (setPeer p s) = .next (setPeer p t) := by
  have hreqs : (setPeer p s).reqs = s.reqs := rfl
  unfold idleStep at h ⊢
  rw [hreqs]
  split at h
  · cases h; rfl
  · exact acceptDescriptor_setPeer h

theorem settleStep_setPeer (h : settleStep s = .next t) : settleStep (setPeer p s) = .next (setPeer p t) := by
  have hmsg : ((msgs (setPeer p s))[(setPeer p s).mi.val]?).bind Msg.pre = ((msgs s)[s.mi.val]?).bind Msg.pre := rfl
  unfold settleStep at h ⊢
  rw [hmsg]
  split at h
  · cases h
  · cases h; rfl

/-! ### The end of a message before another peer -/

theorem echoCheck_setPeer : echoCheck (setPeer p s) = setPeer p (echoCheck s) := by
  apply state_ext <;> simp [setPeer]

theorem finishRequest_setPeer : finishRequest (setPeer p s) = setPeer p (finishRequest s) := by
  apply state_ext <;> simp [setPeer]

theorem nextMessage_setPeer (h : nextMessage s = .next t) : nextMessage (setPeer p s) = .next (setPeer p t) := by
  by_cases hn : s.mi.val + 1 < s.nmsg.val
  · rw [nextMessage, dif_pos hn] at h
    rw [nextMessage, dif_pos (show (setPeer p s).mi.val + 1 < (setPeer p s).nmsg.val from hn)]
    exact startMessage_setPeer h
  · rw [nextMessage, dif_neg hn] at h
    cases h
    rw [nextMessage, dif_neg (show ¬ (setPeer p s).mi.val + 1 < (setPeer p s).nmsg.val from hn), finishRequest_setPeer]

theorem endOfMessage_setPeer (h : endOfMessage s = .next t) : endOfMessage (setPeer p s) = .next (setPeer p t) := by
  have htgt : (setPeer p s).tgt = s.tgt := rfl
  have hstart : ∀ u, startBad u (setPeer p s) = startBad u s := fun _ => rfl
  have hend : ∀ u, endBad u (setPeer p s) = endBad u s := fun _ => rfl
  unfold endOfMessage at h ⊢
  rw [htgt]
  split at h
  · cases h
  · simp only [hstart, hend, echoCheck_setPeer]
    split at h
    · rename_i hbad
      cases h
      rw [if_pos hbad]; rfl
    · rename_i hbad
      rw [if_neg hbad]
      exact nextMessage_setPeer h

theorem advance_setPeer (h : advance s = .next t) : advance (setPeer p s) = .next (setPeer p t) := by
  by_cases hx : s.xi.val < 11
  · rw [advance, dif_pos hx] at h
    cases h
    rw [advance, dif_pos (show (setPeer p s).xi.val < 11 from hx)]; rfl
  · rw [advance, dif_neg hx] at h
    rw [advance, dif_neg (show ¬ (setPeer p s).xi.val < 11 from hx)]
    exact endOfMessage_setPeer (s := markValid s.mi s) h

/-! ### Exchanges before another peer -/

theorem exchanged_setPeer (w r : Word) : exchanged w r (setPeer p s) = setPeer (peerAfter p w) (exchanged w r s) := by
  have hrec : recordExchange w (.ok r) (setPeer p s) = setPeer (peerAfter p w) (recordExchange w (.ok r) s) := rfl
  have hcomp : ∀ (q : Peer) (u : State), compensate r (setPeer q u) = setPeer q (compensate r u) := by
    intro q u
    by_cases hx : 1 ≤ u.xi.val
    · rw [compensate, compensate, if_pos hx, if_pos (show 1 ≤ (setPeer q u).xi.val from hx)]; rfl
    · rw [compensate, compensate, if_neg hx, if_neg (show ¬ 1 ≤ (setPeer q u).xi.val from hx)]
  rw [exchanged, hrec, hcomp]; rfl

/-- An exchange answered `a` is the same whatever the peer would answer later: only what is left of the peer differs. -/
theorem afterAnswer_setPeer {w : Word} {a : LinkAnswer} (h : afterAnswer w a s = .next t) :
    afterAnswer w a (setPeer p s) = .next (setPeer (peerAfter p w) t) := by
  cases a with
  | fail => cases h; rfl
  | ok r =>
    have hadv : advance (exchanged w r s) = .next t := h
    show advance (exchanged w r (setPeer p s)) = _
    rw [exchanged_setPeer]
    exact advance_setPeer hadv

/-- An exchange with a script takes its first answer. -/
theorem exchangeStep_script {a : LinkAnswer} {l : List LinkAnswer} (hp : s.peer = .oracle (a :: l)) :
    exchangeStep s = afterAnswer (outWord s) a s := by
  rw [exchangeStep, peerReply_script hp]

/-! ### Steps before another peer -/

/-- A step that is no exchange does not depend on the peer. -/
theorem step_setPeer (hn : resetAsserted s = true ∨ s.ph ≠ .xchg) (h : step s = .next t) :
    step (setPeer p s) = .next (setPeer p t) := by
  cases hr : resetAsserted s with
  | true =>
    rw [step_of_reset hr] at h
    cases h
    exact step_of_reset (s := setPeer p s) hr
  | false =>
    rw [step_of_quiet hr] at h
    rw [step_of_quiet (s := setPeer p s) hr]
    show engineStep (setPeer p (tickReset s)) = _
    have hph : (setPeer p (tickReset s)).ph = s.ph := rfl
    unfold engineStep at h ⊢
    rw [tickReset_ph] at h
    rw [hph]
    cases hp : s.ph with
    | idle => rw [hp] at h; exact idleStep_setPeer h
    | settle => rw [hp] at h; exact settleStep_setPeer h
    | xchg => rcases hn with hn | hn; exacts [absurd (hr.symm.trans hn) (by decide), absurd hp hn]

theorem step_of_exchange (hr : resetAsserted s = false) (hx : s.ph = .xchg) : step s = exchangeStep (tickReset s) := by
  rw [step_of_quiet hr, engineStep, tickReset_ph, hx]

/-- An exchange depends on the first answer of a script only, and leaves the others. -/
theorem step_setPeer_script {a : LinkAnswer} {l m : List LinkAnswer} (hr : resetAsserted s = false) (hx : s.ph = .xchg)
    (hp : s.peer = .oracle (a :: l)) (h : step s = .next t) :
    step (setPeer (.oracle (a :: m)) s) = .next (setPeer (.oracle m) t) := by
  rw [step_of_exchange hr hx, exchangeStep_script (s := tickReset s) hp] at h
  rw [step_of_exchange (s := setPeer (.oracle (a :: m)) s) hr hx, exchangeStep_script rfl]
  exact afterAnswer_setPeer h

/-- A state that is the same before the peer `p` has the peer `p`. -/
theorem peer_of_setPeer (h : (Host.Outcome.next t : Result) = .next (setPeer p t)) : t.peer = p := by
  injection h with h
  exact congrArg State.peer h

end

/-- Settles O49: a step that is no exchange does not depend on the peer, and an exchange takes the first answer of the script and
leaves the others. -/
theorem stepsIgnoreLaterAnswers : Obligations.StepsIgnoreLaterAnswers := by
  intro s t a l m h
  by_cases hn : resetAsserted s = true ∨ s.ph ≠ .xchg
  · have hstep := fun q => step_setPeer (p := q) (s := setPeer (.oracle (a :: l)) s) hn h
    have hpeer : t.peer = .oracle (a :: l) := peer_of_setPeer (h.symm.trans (hstep _))
    refine ⟨.inr hpeer, fun htaken => ?_, fun _ => hstep (.oracle (a :: m))⟩
    rw [hpeer] at htaken
    injection htaken with htaken
    exact absurd htaken (List.cons_ne_self a l)
  · obtain ⟨hr, hx⟩ : resetAsserted s = false ∧ s.ph = .xchg := by simpa using hn
    have hstep := fun k => step_setPeer_script (s := setPeer (.oracle (a :: l)) s) (m := k) hr hx rfl h
    have hpeer : t.peer = .oracle l := peer_of_setPeer (h.symm.trans (hstep l))
    refine ⟨.inl hpeer, fun _ => hstep m, fun hkept => ?_⟩
    rw [hpeer] at hkept
    injection hkept with hkept
    exact absurd hkept.symm (List.cons_ne_self a l)

end Sys2Proof.Machine
end

section
/-! SUPPORT. What a read of each result register yields, and the obligation about it. -/

namespace Sys2Proof.Machine

/-- An idle engine's valid response is read as it is (R35). -/
theorem readResp_of_valid {s : State} {m : Fin 4} (hb : statBusy s.stat = false) (hv : s.respv[m] = true) (p : Fin 11)
    (any : Word) : readResp s m p any = s.resp[m][p] :=
  readWhere_of_valid ((respReadable_iff s m p).mpr (.inl hv)) hb _ _

theorem quadrantOf_bank (b : Fin 4) (j : Fin 8) : quadrantOf ⟨8 * b.val + j.val, by omega⟩ = b :=
  Fin.ext (show (8 * b.val + j.val) / 8 = b.val by omega)

theorem dataPosOf_bank (b : Fin 4) (j : Fin 8) : dataPosOf ⟨8 * b.val + j.val, by omega⟩ = dataPos j :=
  Fin.ext (show 2 + (8 * b.val + j.val) % 8 = 2 + j.val by omega)

/-- The view `HIT` bit by bit (R31, R189). -/
theorem hit_bit (s : State) (p : Fin 32) (l n : Fin 4) : (hit s)[p][l][n] = s.hp[p].getLsbD (4 * n.val + l.val) := by
  simp [hit, lanes, wordLanes]

/-- Settles O59: each read is guarded by what its clause assumes. -/
theorem resultsAreReadableWhenIdle : Obligations.ResultsAreReadableWhenIdle := by
  refine ⟨fun _ => rfl, fun s hb => ⟨?_, ?_, ?_, ?_, ?_, fun hv => ⟨?_, ?_⟩, fun hv => ⟨?_, ?_⟩⟩⟩
  · exact fun _ _ => readWhere_of_valid rfl hb _ _
  · exact fun _ _ => readWhere_of_valid rfl hb _ _
  · exact fun _ => readWhere_of_valid rfl hb _ _
  · exact fun _ => ⟨readWhere_of_valid rfl hb _ _, readWhere_of_valid rfl hb _ _⟩
  · intro b j any hv
    rw [readRdbk, quadrantOf_bank, dataPosOf_bank, readResp_of_valid hb hv]; rfl
  · intro k sub j any
    rw [readAnalog, readResp_of_valid hb hv]; rfl
  · intro slot any
    rw [readPresent, readResp_of_valid hb hv]; rfl
  · exact fun _ _ => readWhere_of_valid hv hb _ _
  · intro p l n any
    rw [readHit, readWhere_of_valid hv hb, hit_bit]

end Sys2Proof.Machine
end

section
/-! SUPPORT. Encoding and decoding of descriptors are inverse, through the command word a class is sent by (R74, R85, R124). -/

namespace Sys2Proof

/-! ### Command words -/

/-- The command word that sends class `k`: its pattern, with the bank in the low byte of a banked class (R74, R88). -/
def commandWord (c : Cfg) (k : CmdClass) (b : BitVec 8) : Word :=
  match k.format with
  | .plain => c.op k
  | .banked => bankedWord c k b

theorem commandWord_plain {c : Cfg} {k : CmdClass} (hf : k.format = .plain) (b : BitVec 8) : commandWord c k b = c.op k := by
  simp only [commandWord, hf]

theorem commandWord_banked {c : Cfg} {k : CmdClass} (hf : k.format = .banked) (b : BitVec 8) :
    commandWord c k b = bankedWord c k b := by
  simp only [commandWord, hf]

theorem classify_commandWord {c : Cfg} (h : c.wf = true) (k : CmdClass) (b : BitVec 8) :
    classify c (commandWord c k b) = some k := by
  cases hf : k.format with
  | plain => rw [commandWord_plain hf]; exact classify_op h hf
  | banked => rw [commandWord_banked hf]; exact classify_bankedWord h hf b

/-- A Word of a named class is the command word of that class with its low byte as the bank (R74, R122). -/
theorem commandWord_subOf {c : Cfg} (h : c.wf = true) {k : CmdClass} {cw : Word} (hk : classify c cw = some k) :
    commandWord c k (subOf cw) = cw := by
  have hm := (classify_eq_some h).mp hk
  cases hf : k.format with
  | plain => rw [commandWord_plain hf, ← (cmdMatches_plain hf).mp hm]
  | banked => rw [commandWord_banked hf, bankedWord_subOf h hf ((cmdMatches_banked hf).mp hm)]

/-- The instruction of a plain class has no bank. -/
theorem commandInstr_plain {k : CmdClass} (hf : k.format = .plain) (b b' : BitVec 8) (d : Payload) :
    commandInstr k b d = commandInstr k b' d := by
  cases k with
  | hkVolt | hkCurr => cases hf
  | _ => rfl

/-- The `XFER` of a class's command word is read as the instruction of that class. -/
theorem xferInstr_commandWord {c : Cfg} (h : c.wf = true) (k : CmdClass) (b : BitVec 8) (d : Payload) :
    xferInstr c (commandWord c k b) d = commandInstr k b d := by
  simp only [xferInstr, classify_commandWord h]
  cases hf : k.format with
  | plain => exact commandInstr_plain hf _ _ d
  | banked => rw [commandWord_banked hf, subOf_bankedWord h hf]

/-! ### The descriptor of a command -/

theorem encode_commandInstr (c : Cfg) (k : CmdClass) (b : BitVec 8) (d : Payload) :
    encode c (commandInstr k b d) = encodeXfer (commandWord c k b) d := by
  cases k <;> rfl

theorem commandInstr_wf (c : Cfg) (k : CmdClass) (b : BitVec 8) (d : Payload) : (commandInstr k b d).wf c = true := by
  cases k <;> rfl

/-- `xfer` stands for the command words of class `UNKNOWN`, and for them only. -/
theorem xfer_wf_iff (c : Cfg) (cw : Word) (d : Payload) : (Instr.xfer cw d).wf c = true ↔ classify c cw = none := by
  simp [Instr.wf, classify]

theorem decode_encodeXfer (c : Cfg) (cw : Word) (d : Payload) : decode c (encodeXfer cw d) = .ok (xferInstr c cw d) := rfl

theorem decode_encode_commandInstr {c : Cfg} (h : c.wf = true) (k : CmdClass) (b : BitVec 8) (d : Payload) :
    decode c (encode c (commandInstr k b d)) = .ok (commandInstr k b d) := by
  rw [encode_commandInstr, decode_encodeXfer, xferInstr_commandWord h]

/-- An instruction of no named class that is well formed is the reading of its own descriptor. -/
theorem decode_encode_xfer {c : Cfg} {cw : Word} {d : Payload} (hi : (Instr.xfer cw d).wf c = true) :
    decode c (encode c (.xfer cw d)) = .ok (.xfer cw d) := by
  rw [show encode c (.xfer cw d) = encodeXfer cw d from rfl, decode_encodeXfer, xferInstr, (xfer_wf_iff c cw d).mp hi]

/-- Settles O1: a request's descriptor is read word by word, and a command's through its command word. -/
theorem decodeOfEncode : Obligations.DecodeOfEncode := by
  intro c i hc hi
  have command := decode_encode_commandInstr hc
  cases i with
  | xfer cw d => exact decode_encode_xfer hi
  | dec | tmdef | tmsgl | tmblk | tmsend | hpcap | tackset | schedset | cntrst | synchs => rfl
  | hkReset d => exact command .hkReset 0 d
  | hkPwr d => exact command .hkPwr 0 d
  | hkPres d => exact command .hkPres 0 d
  | hkVolt b d => exact command .hkVolt b d
  | hkCurr b d => exact command .hkCurr b d
  | hkEnv d => exact command .hkEnv 0 d
  | hkBrd d => exact command .hkBrd 0 d
  | hkAdct d => exact command .hkAdct 0 d
  | hkCalt d => exact command .hkCalt 0 d
  | hkPbst d => exact command .hkPbst 0 d
  | hkDqrst d => exact command .hkDqrst 0 d
  | hkCkrst d => exact command .hkCkrst 0 d
  | hkI2crst d => exact command .hkI2crst 0 d
  | trNsset d => exact command .trNsset 0 d
  | trNsrd d => exact command .trNsrd 0 d
  | trMask0 d => exact command .trMask0 0 d
  | trMask1 d => exact command .trMask1 0 d
  | trMask2 d => exact command .trMask2 0 d
  | trMask3 d => exact command .trMask3 0 d
  | trLttrd d => exact command .trLttrd 0 d
  | trHold d => exact command .trHold 0 d
  | trSwtrg d => exact command .trSwtrg 0 d
  | trHwen d => exact command .trHwen 0 d
  | trHwdis d => exact command .trHwdis 0 d
  | trCntrst d => exact command .trCntrst 0 d
  | trHit0 d => exact command .trHit0 0 d
  | trHit1 d => exact command .trHit1 0 d
  | trHit2 d => exact command .trHit2 0 d
  | trHit3 d => exact command .trHit3 0 d
  | trArrcfg d => exact command .trArrcfg 0 d
  | trTack d => exact command .trTack 0 d
  | trSched d => exact command .trSched 0 d
  | trDiag d => exact command .trDiag 0 d

/-! ### What a list of Words that decodes is -/

theorem decodeXfer_ok {c : Cfg} {ops : List Word} {i : Instr} (h : decodeXfer c ops = .ok i) :
    ∃ cw d, ops = cw :: Payload.toList d ∧ i = xferInstr c cw d := by
  unfold decodeXfer at h
  split at h <;> cases h
  exact ⟨_, ⟨_, _, _, _, _, _, _, _⟩, rfl, rfl⟩

theorem decodeNone_ok {j i : Instr} {ops : List Word} (h : decodeNone j ops = .ok i) : ops = [] ∧ i = j := by
  unfold decodeNone at h
  split at h <;> cases h
  exact ⟨rfl, rfl⟩

theorem decodeOne_ok {f : Word → Instr} {ops : List Word} {i : Instr} (h : decodeOne f ops = .ok i) :
    ∃ a, ops = [a] ∧ i = f a := by
  unfold decodeOne at h
  split at h <;> cases h
  exact ⟨_, rfl, rfl⟩

theorem decodeTwo_ok {f : Word → Word → Instr} {ops : List Word} {i : Instr} (h : decodeTwo f ops = .ok i) :
    ∃ a b, ops = [a, b] ∧ i = f a b := by
  unfold decodeTwo at h
  split at h <;> cases h
  exact ⟨_, _, rfl, rfl⟩

theorem decodeThree_ok {f : Word → Word → Word → Instr} {ops : List Word} {i : Instr} (h : decodeThree f ops = .ok i) :
    ∃ a b c, ops = [a, b, c] ∧ i = f a b c := by
  unfold decodeThree at h
  split at h <;> cases h
  exact ⟨_, _, _, rfl, rfl⟩

theorem decodeFour_ok {f : Word → Word → Word → Word → Instr} {ops : List Word} {i : Instr}
    (h : decodeFour f ops = .ok i) : ∃ a b c d, ops = [a, b, c, d] ∧ i = f a b c d := by
  unfold decodeFour at h
  split at h <;> cases h
  exact ⟨_, _, _, _, rfl, rfl⟩

/-- Every `XFER` is the descriptor of the instruction it is read as, which is well formed. -/
theorem encode_xferInstr {c : Cfg} (h : c.wf = true) (cw : Word) (d : Payload) :
    encode c (xferInstr c cw d) = encodeXfer cw d ∧ (xferInstr c cw d).wf c = true := by
  unfold xferInstr
  cases hk : classify c cw with
  | none => exact ⟨rfl, (xfer_wf_iff c cw d).mpr hk⟩
  | some k =>
    refine ⟨?_, commandInstr_wf c k _ d⟩
    rw [encode_commandInstr, commandWord_subOf h hk]

/-- Settles O2, by the request code in word 0. -/
theorem encodeOfDecode : Obligations.EncodeOfDecode := by
  intro c ws i hc hd
  cases ws with
  | nil => cases hd
  | cons w0 ops =>
    obtain ⟨code, hcode⟩ : ∃ code, w0.toNat = code := ⟨_, rfl⟩
    obtain rfl : w0 = BitVec.ofNat 16 code := by rw [← hcode, BitVec.ofNat_toNat, BitVec.setWidth_eq]
    simp only [decode, hcode] at hd
    split at hd
    · obtain ⟨cw, d, rfl, rfl⟩ := decodeXfer_ok hd
      exact encode_xferInstr hc cw d
    · obtain ⟨cw, rfl, rfl⟩ := decodeOne_ok hd
      exact ⟨rfl, rfl⟩
    · obtain ⟨rfl, rfl⟩ := decodeNone_ok hd
      exact ⟨rfl, rfl⟩
    · obtain ⟨slot, asic, group, rfl, rfl⟩ := decodeThree_ok hd
      exact ⟨rfl, rfl⟩
    · obtain ⟨vlo, vhi, rfl, rfl⟩ := decodeTwo_ok hd
      exact ⟨rfl, rfl⟩
    · obtain ⟨rfl, rfl⟩ := decodeNone_ok hd
      exact ⟨rfl, rfl⟩
    · obtain ⟨rfl, rfl⟩ := decodeNone_ok hd
      exact ⟨rfl, rfl⟩
    · obtain ⟨ty, mo, rfl, rfl⟩ := decodeTwo_ok hd
      exact ⟨rfl, rfl⟩
    · obtain ⟨t3, t2, t1, t0, rfl, rfl⟩ := decodeFour_ok hd
      exact ⟨rfl, rfl⟩
    · obtain ⟨rfl, rfl⟩ := decodeNone_ok hd
      exact ⟨rfl, rfl⟩
    · obtain ⟨t3, t2, t1, t0, rfl, rfl⟩ := decodeFour_ok hd
      exact ⟨rfl, rfl⟩
    · cases hd

/-- Settles O3. -/
theorem sampledDescriptorsDecode : Obligations.SampledDescriptorsDecode :=
  ⟨rfl, rfl, rfl, rfl, rfl, rfl, rfl, rfl⟩

end Sys2Proof
end

section
/-! SUPPORT. What the accept step does with a descriptor that is read as no instruction (R86, log 6). -/

namespace Sys2Proof.Machine

/-- A reserved word 0 is `InvalidParameter`, with the descriptor taken (R86, R223). -/
theorem acceptDescriptor_reserved {s : State} {q : List Word} (hd : decode s.cfg q = .error .reservedCode) :
    acceptDescriptor q s = .next (raiseError .invalidParameter (takeRequest s)) := by
  simp only [acceptDescriptor, hd]

theorem acceptDescriptor_empty {s : State} {q : List Word} (hd : decode s.cfg q = .error .empty) :
    acceptDescriptor q s = .fault .malformedDescriptor := by
  simp only [acceptDescriptor, hd]

theorem acceptDescriptor_badLength {s : State} {q : List Word} (hd : decode s.cfg q = .error .badLength) :
    acceptDescriptor q s = .fault .malformedDescriptor := by
  simp only [acceptDescriptor, hd]

/-- `InvalidParameter` at an accept step: the descriptor is taken, `STAT` is written, and nothing else changes (R226). -/
theorem refuse_presented {s : State} {q : List Word} {rest : List (List Word)} (hq : s.reqs = q :: rest) :
    raiseError .invalidParameter (takeRequest (tickReset s)) =
      { s with reqs := rest, rst := s.rst.tail, stat := 0x000E } := by
  obtain rfl : rest = s.reqs.tail := by rw [hq, List.tail_cons]
  rfl

/-- Settles O4: the reserved word 0 is read as no request code, and error entry writes `STAT` alone. -/
theorem reservedDescriptorRefused : Obligations.ReservedDescriptorRefused := by
  intro s w0 ops rest hp hr hq hw
  rw [step_of_presented hr hp hq, acceptDescriptor_reserved (decode_reserved _ w0 ops hw), refuse_presented hq]

/-- Settles O26: with no Word there is no word 0, and a legal code with another number of operand Words is no request. -/
theorem malformedDescriptorStops : Obligations.MalformedDescriptorStops := by
  intro s q rest hr hp hq hbad
  rw [step_of_presented hr hp hq]
  rcases hbad with rfl | ⟨w0, ops, rfl, hlow, hhigh, hlen⟩
  · exact acceptDescriptor_empty rfl
  · exact acceptDescriptor_badLength (decode_badLength _ w0 ops hlow hhigh hlen)

end Sys2Proof.Machine
end

section
/-! SUPPORT. The numbers the packings of a TimeValue stand for (R77). -/

namespace Sys2Proof.Machine

/-- The sum of R77 is below 2^64, so `WordsToTime` is that sum. -/
theorem wordsToTime_toNat (w0 w1 w2 w3 : Word) :
    (wordsToTime w0 w1 w2 w3).toNat = w0.toNat * 2 ^ 48 + w1.toNat * 2 ^ 32 + w2.toNat * 2 ^ 16 + w3.toNat := by
  rw [wordsToTime, BitVec.toNat_ofNat]
  omega

/-- The Word of a time that begins at bit `n`. -/
theorem timeWord_toNat (t : BitVec 64) (n : Nat) : (t.extractLsb' n 16).toNat = t.toNat / 2 ^ n % 2 ^ 16 := by
  rw [BitVec.extractLsb'_toNat, Nat.shiftRight_eq_div_pow]

theorem wordsToTime_of_timeWords (t : BitVec 64) :
    wordsToTime (t.extractLsb' 48 16) (t.extractLsb' 32 16) (t.extractLsb' 16 16) (t.extractLsb' 0 16) = t := by
  apply BitVec.eq_of_toNat_eq
  simp only [wordsToTime_toNat, timeWord_toNat]
  omega

theorem timeToWords_wordsToTime (w0 w1 w2 w3 : Word) : timeToWords (wordsToTime w0 w1 w2 w3) = [w0, w1, w2, w3] := by
  have word {n : Nat} {w : Word} (h : (wordsToTime w0 w1 w2 w3).toNat / 2 ^ n % 2 ^ 16 = w.toNat) :
      (wordsToTime w0 w1 w2 w3).extractLsb' n 16 = w := BitVec.eq_of_toNat_eq ((timeWord_toNat _ n).trans h)
  have htime := wordsToTime_toNat w0 w1 w2 w3
  rw [timeToWords, word (w := w0) (by omega), word (w := w1) (by omega), word (w := w2) (by omega),
    word (w := w3) (by omega)]

/-- Settles O56. -/
theorem timeWordsAreInverse : Obligations.TimeWordsAreInverse :=
  ⟨fun t => ⟨rfl, wordsToTime_of_timeWords t⟩,
    fun w0 w1 w2 w3 => ⟨wordsToTime_toNat w0 w1 w2 w3, timeToWords_wordsToTime w0 w1 w2 w3⟩, by decide, by decide⟩

end Sys2Proof.Machine
end

section
/-! SUPPORT. What each class of command word gives the response data words to mean (R78). -/

namespace Sys2Proof.Machine

/-- The bank of an analog readback is the low byte of a banked command word (R159). -/
theorem analogBank_of_class_banked {c : Cfg} {cw : Word} {k : CmdClass} (hk : classify c cw = some k)
    (hf : k.format = .banked) : analogBank c cw = subOf cw :=
  analogBank_of_banked (by rw [hk]; simp [isBanked, hf])

theorem analogBank_of_class_plain {c : Cfg} {cw : Word} {k : CmdClass} (hk : classify c cw = some k)
    (hf : k.format = .plain) : analogBank c cw = 0 :=
  analogBank_of_plain (by rw [hk]; simp [isBanked, hf])

theorem reading_hkVolt {s : State} {cw : Word} (m : Fin 4) (hk : classify s.cfg cw = some .hkVolt) :
    reading s m cw = analogReading s .volt (subOf cw) := by
  simp only [reading, hk, analogBank_of_class_banked hk rfl]

theorem reading_hkCurr {s : State} {cw : Word} (m : Fin 4) (hk : classify s.cfg cw = some .hkCurr) :
    reading s m cw = analogReading s .curr (subOf cw) := by
  simp only [reading, hk, analogBank_of_class_banked hk rfl]

theorem reading_hkEnv {s : State} {cw : Word} (m : Fin 4) (hk : classify s.cfg cw = some .hkEnv) :
    reading s m cw = analogReading s .env 0 := by
  simp only [reading, hk, analogBank_of_class_plain hk rfl]

theorem reading_hkBrd {s : State} {cw : Word} (m : Fin 4) (hk : classify s.cfg cw = some .hkBrd) :
    reading s m cw = analogReading s .brd 0 := by
  simp only [reading, hk, analogBank_of_class_plain hk rfl]

theorem reading_hkPres {s : State} {cw : Word} (m : Fin 4) (hk : classify s.cfg cw = some .hkPres) :
    reading s m cw = .presence (Vector.ofFn (slotPresent s)) := by
  simp only [reading, hk]

theorem reading_maskBank {s : State} {cw : Word} (m : Fin 4)
    (hk : classify s.cfg cw ∈ [some CmdClass.trMask0, some .trMask1, some .trMask2, some .trMask3]) :
    reading s m cw = .maskBank (dataWords s m) := by
  simp only [List.mem_cons, List.not_mem_nil, or_false] at hk
  rcases hk with hk | hk | hk | hk <;> simp only [reading, hk]

theorem reading_hitQuadrant {s : State} {cw : Word} (m : Fin 4)
    (hk : classify s.cfg cw ∈ [some CmdClass.trHit0, some .trHit1, some .trHit2, some .trHit3]) :
    reading s m cw = .hitQuadrant (dataWords s m) := by
  simp only [List.mem_cons, List.not_mem_nil, or_false] at hk
  rcases hk with hk | hk | hk | hk <;> simp only [reading, hk]

/-- Every other class, and `UNKNOWN`, has the format `RS-RAW`. -/
theorem reading_raw {s : State} {cw : Word} (m : Fin 4)
    (hk : classify s.cfg cw ∉ [some CmdClass.hkVolt, some .hkCurr, some .hkEnv, some .hkBrd, some .hkPres, some .trMask0,
      some .trMask1, some .trMask2, some .trMask3, some .trHit0, some .trHit1, some .trHit2, some .trHit3]) :
    reading s m cw = .raw (dataWords s m) := by
  unfold reading
  generalize classify s.cfg cw = cls at hk ⊢
  cases cls with
  | none => rfl
  | some k =>
    cases k with
    | hkVolt | hkCurr | hkEnv | hkBrd | hkPres | trMask0 | trMask1 | trMask2 | trMask3 | trHit0 | trHit1 | trHit2 | trHit3 =>
      exact absurd (by decide) hk
    | _ => rfl

/-- Settles O60. -/
theorem responseDataFormats : Obligations.ResponseDataFormats :=
  ⟨dataWords_get, rdbk_bank, fun _ _ _ _ => rfl, fun _ _ => rfl, fun _ m _ =>
    ⟨reading_hkVolt m, reading_hkCurr m, reading_hkEnv m, reading_hkBrd m, reading_hkPres m, reading_maskBank m,
      reading_hitQuadrant m, reading_raw m⟩⟩

end Sys2Proof.Machine
end

section
/-! SUPPORT. The acceptance of an `XFER` and of a presented descriptor (R100, R109, R124), and the obligations about it. -/

namespace Sys2Proof.Machine

/-! ### `XFER` -/

/-- The acceptance of an `XFER` whose command word routes (R109): the class decides the settle wait only (R125, R160). -/
theorem acceptXfer_started {s : State} {cw : Word} {t : Controller} (hp : s.ph = .idle) (hr : routeOf s.cfg cw = some t)
    (d : Payload) : acceptXfer cw d s = .next (xferStarted s t cw d (isAnalog (classify s.cfg cw))) := by
  have hvalid : xferValid s.cfg cw = true := by rw [xferValid, hr]; rfl
  have hmsgs : msgsOf s.cfg 0x1#4 (latchArgs s.arg (cw :: d.toList)) s.mask = [⟨analogWait s.cfg cw, cw, d⟩] := by
    rw [latchArgs_xfer]; rfl
  have hwait : (analogWait s.cfg cw).isSome = isAnalog (classify s.cfg cw) := by
    unfold analogWait; cases isAnalog (classify s.cfg cw) <;> rfl
  rw [acceptXfer, hvalid, acceptLink_linkStarted hp 0x1#4 _ (n := 1) hmsgs hr rfl, hwait, latchArgs_xfer]
  rfl

/-- Settles O13: `XFER` is accepted as every command word is, and the four analog classes are the ones that wait. -/
theorem xferStartsTheMessage : Obligations.XferStartsTheMessage := by
  intro cw d s t hp hr
  rw [← isAnalog_iff]
  exact acceptXfer_started hp hr d

/-- A command is the `XFER` of its command word (R124). -/
theorem exec_commandInstr (k : CmdClass) (b : BitVec 8) (d : Payload) (s : State) :
    exec (commandInstr k b d) s = acceptXfer (commandWord s.cfg k b) d s := by
  cases k <;> rfl

/-- The instruction an `XFER` descriptor is read as sends the descriptor's command word, named or not. -/
theorem exec_xferInstr {s : State} (h : s.cfg.wf = true) (cw : Word) (d : Payload) :
    exec (xferInstr s.cfg cw d) s = acceptXfer cw d s := by
  unfold xferInstr
  split
  · rename_i k hk
    rw [exec_commandInstr, commandWord_subOf h hk]
  · rfl

/-! ### The accept step -/

/-- The accept step runs the instruction presented, with its descriptor taken from the port (R100). -/
theorem step_of_decoded {s : State} {q : List Word} {rest : List (List Word)} {i : Instr} (hr : resetAsserted s = false)
    (hp : s.ph = .idle) (hq : s.reqs = q :: rest) (hd : decode s.cfg q = .ok i) :
    step s = exec i { s with reqs := rest, rst := s.rst.tail } := by
  obtain rfl : rest = s.reqs.tail := by rw [hq, List.tail_cons]
  rw [step_of_presented hr hp hq]
  simp only [acceptDescriptor, tickReset_cfg, hd]
  rfl

/-- An idle engine that is presented no descriptor waits (R239). -/
theorem step_of_waiting {s : State} (hr : resetAsserted s = false) (hp : s.ph = .idle) (hq : s.reqs = []) :
    step s = .next { s with rst := s.rst.tail } := by
  have hidle : engineStep (tickReset s) = .next (tickReset s) := by
    simp only [engineStep, tickReset_ph, hp, idleStep, tickReset_reqs, hq]
  exact (step_of_quiet hr).trans hidle

/-- Settles O25, by whether a descriptor is presented. -/
theorem stepRunsThePresentedRequest : Obligations.StepRunsThePresentedRequest :=
  ⟨fun _ _ _ _ => step_of_decoded, fun _ => step_of_waiting⟩

end Sys2Proof.Machine
end

section
/-! SUPPORT. The settle step and the exchange step, each kind written out (R103 to R108), and the obligations about them. -/

namespace Sys2Proof.Machine

/-! ### The running engine -/

/-- A running request has an addressed controller (R102). -/
theorem Running.addressed {s : State} (h : Running s) : ∃ t, s.tgt = some t := by
  obtain ⟨-, t, -, -, ht, -⟩ := h.framed
  exact ⟨t, ht⟩

/-- A message that is not the request's last is followed by one that routes (R101). -/
theorem Running.next_routes {s : State} (h : Running s) (hn : s.mi.val + 1 < s.nmsg.val) :
    ∃ msg u, (msgs s)[s.mi.val + 1]? = some msg ∧ routeOf s.cfg msg.cw = some u := by
  have hlt : s.mi.val + 1 < (msgs s).length := by rw [h.count]; exact hn
  obtain ⟨u, hu⟩ := Option.isSome_iff_exists.mp (h.routable _ (List.getElem_mem hlt))
  exact ⟨_, u, List.getElem?_eq_getElem hlt, hu⟩

/-! ### The settle step -/

theorem step_settled {s : State} {msg : Msg} {d : Nat} (hr : resetAsserted s = false) (hp : s.ph = .settle)
    (hm : (msgs s)[s.mi.val]? = some msg) (hd : msg.pre = some d) :
    step s = .next { s with rst := s.rst.tail, hist := s.hist ++ [.settle d], ph := .xchg } := by
  have hpre : ((msgs (tickReset s))[(tickReset s).mi.val]?).bind Msg.pre = some d := by
    show ((msgs s)[s.mi.val]?).bind Msg.pre = some d
    rw [hm]; exact hd
  rw [step_of_quiet hr]
  simp only [engineStep, tickReset_ph, hp, settleStep, hpre]
  rfl

/-- Settles O27: in the phase `SETTLE` the invariant has a message with a wait. -/
theorem settleStepWaits : Obligations.SettleStepWaits := by
  intro s h hr hp
  obtain ⟨-, hsome⟩ := (h.runs_in_settle hp).settle hp
  obtain ⟨d, hbind⟩ := Option.isSome_iff_exists.mp hsome
  obtain ⟨msg, hm, hd⟩ := Option.bind_eq_some_iff.mp hbind
  exact ⟨msg, d, hm, hd, step_settled hr hp hm hd⟩

/-! ### The word received -/

/-- Where the delay compensator stores (R104): one position back in the buffer of the message, and nowhere else. -/
theorem exchanged_resp_word (w r : Word) (s : State) (m : Fin 4) (p : Fin 11) :
    (exchanged w r s).resp[m][p] = if m = s.mi ∧ p.val + 1 = s.xi.val then r else s.resp[m][p] := by
  cases hx : s.xi.val with
  | zero => rw [exchanged_resp_first hx, if_neg (by omega)]
  | succ x =>
    have hlt : x < 11 := by have := s.xi.isLt; omega
    rw [exchanged_resp_stored hx hlt]
    by_cases hm : m = s.mi
    · subst hm
      simp [Vector.getElem_set, eq_comm (a := x)]
    · simp [Vector.getElem_set_ne, Fin.val_ne_of_ne (Ne.symm hm), hm]

/-- Settles O29: what the delay compensator leaves in `RESP` is given word by word. -/
theorem receivedWordIsStoredOneBack : Obligations.ReceivedWordIsStoredOneBack := by
  intro s r hr hp hx ha
  have ho : outWord s = s.tx[s.xi.val] := dif_pos hx
  refine ⟨(exchanged s.tx[s.xi.val] r (tickReset s)).resp, ?_, exchanged_resp_word _ r (tickReset s)⟩
  rw [step_stored hr hp hx (by rw [ho]; exact ha), ho]
  congr 1
  apply state_ext <;> simp

/-! ### The last exchange of a message -/

/-- `NextMessage` where another message follows (R107). -/
theorem nextMessage_start {s : State} {m : Fin 4} {msg : Msg} {u : Controller} (he : m.val = s.mi.val + 1)
    (hn : m.val < s.nmsg.val) (hm : (msgs s)[m.val]? = some msg) (hr : routeOf s.cfg msg.cw = some u) :
    nextMessage s = .next (frameMessage u msg (setMi m s)) := by
  rw [he] at hn hm
  rw [show m = ⟨s.mi.val + 1, by omega⟩ from Fin.ext he, nextMessage, dif_pos hn]
  exact startMessage_eq (s := setMi _ s) hm hr

/-- `NextMessage` after the request's last message (R107). -/
theorem nextMessage_finish {s : State} (hn : s.nmsg.val ≤ s.mi.val + 1) : nextMessage s = .next (finishRequest s) := by
  rw [nextMessage, dif_neg (by omega)]

/-- The end of a request, written out (R107): `HPCAP` alone has a completion effect (R186). -/
theorem finishRequest_eq (s : State) : finishRequest s =
    { s with
      mi := 0, xi := 0, ph := .idle, stat := completeStat s.stat
      hp := if s.opr = 0x7#4 then reorder (respData s.resp) else s.hp
      hpv := if s.opr = 0x7#4 then true else s.hpv } := by
  apply state_ext <;> simp [isHpcap]

/-- The state after the last exchange of a running message and its command-echo check, written out (R104 to R106). -/
theorem echoCheck_received_last {s : State} (h : Running s) (hx : s.xi = 11) (w r : Word) :
    echoCheck (received w r (tickReset s)) =
      { s with
        rst := s.rst.tail, hist := s.hist ++ [.xchg w r], peer := peerAfter s.peer w, xcount := s.xcount + 1
        resp := s.resp.set s.mi (s.resp[s.mi].set 10 r), respv := s.respv.set s.mi true
        stat := if s.resp[s.mi][1] ≠ s.tx[1] then 0x0021#16 else s.stat } := by
  rw [echoCheck_eq, echoCheck_received_stat hx, setEcho_running h.stat, received_last hx]
  simp only [bne_iff_ne]

/-- A step on the last exchange of a message whose markers are right (R106). -/
theorem step_last_right {s : State} {t : Controller} {r : Word} (hr : resetAsserted s = false) (hp : s.ph = .xchg)
    (hx : s.xi = 11) (ht : s.tgt = some t) (ha : peerReply s s.cfg.nullWord = .ok r) (hs : s.resp[s.mi][0] = s.cfg.som t)
    (he : r = s.cfg.eom t) : step s = nextMessage (echoCheck (received s.cfg.nullWord r (tickReset s))) := by
  rw [step_last hr hp hx ht ha, hs, he, bne_self_eq_false, bne_self_eq_false]
  rfl

/-- Settles O32: the message list of the invariant has the next message, and it routes. -/
theorem nextMessageIsStarted : Obligations.NextMessageIsStarted := by
  intro s t r h hr hp hx ht ha hs he hn
  have hrun := h.runs_in_xchg hp
  obtain ⟨msg, u, hm, hu⟩ := hrun.next_routes hn
  refine ⟨msg, u, hm, hu, ?_⟩
  rw [step_last_right hr hp hx ht ha hs he, echoCheck_received_last hrun hx]
  exact nextMessage_start (m := ⟨s.mi.val + 1, by omega⟩) rfl hn hm hu

/-- `STAT` at the end of a running request (R106, R107): `DONE`, and `ECHO` where the echo of this message or of an earlier one
was wrong. -/
theorem completeStat_checked {w : Word} (h : w = 0x0001#16 ∨ w = 0x0021#16) (wrong : Prop) [Decidable wrong] :
    completeStat (if wrong then 0x0021#16 else w) = if wrong ∨ statEcho w = true then 0x0022#16 else 0x0002#16 := by
  by_cases hw : wrong
  · simp only [hw, if_true, true_or]; decide
  · simp only [hw, if_false, false_or, completeStat_running h]

/-- The reversal of R187 on the data words of the responses (R185). -/
theorem reorder_respData (resp : Vector (Vector Word 11) 4) (q : Fin 4) (j : Fin 8) :
    (reorder (respData resp))[31 - 8 * q.val - j.val]'(by omega) = resp[q][2 + j.val]'(by omega) := by
  have hquad : (31 - (31 - 8 * q.val - j.val)) / 8 = q.val := by omega
  have hpos : (31 - (31 - 8 * q.val - j.val)) % 8 = j.val := by omega
  simp only [reorder, respData, mirror, quadrantOf, dataPosOf, Fin.getElem_fin, Vector.getElem_ofFn, hquad, hpos]

/-- Storing the end marker leaves every other word of the buffers. -/
theorem resp_set_last_word (resp : Vector (Vector Word 11) 4) (m q : Fin 4) (r : Word) (p : Nat) (hp : p < 10) :
    (resp.set m (resp[m].set 10 r))[q][p] = resp[q][p] := by
  simp only [Fin.getElem_fin, Vector.getElem_set]
  split
  · rename_i hm
    rw [Vector.getElem_set_ne _ _ (by omega)]
    simp only [hm]
  · rfl

/-- Settles O33: the completion effect reads data words, which the end marker just stored is not one of. -/
theorem lastMessageEndsTheRequest : Obligations.LastMessageEndsTheRequest := by
  intro s t r h hr hp hx ht ha hs he hn
  have hrun := h.runs_in_xchg hp
  refine ⟨if s.opr = 0x7#4 then reorder (respData (s.resp.set s.mi (s.resp[s.mi].set 10 r))) else s.hp, ?_,
    fun hopr => if_neg hopr, fun hopr q j => ?_⟩
  · rw [step_last_right hr hp hx ht ha hs he, nextMessage_finish (by simpa using hn), echoCheck_received_last hrun hx,
      finishRequest_eq, completeStat_checked hrun.stat]
  · simp only [hopr, if_true]
    rw [reorder_respData, resp_set_last_word _ _ _ _ _ (by omega)]

/-! ### Every exchange step -/

/-- The last exchange of a running message is followed by an error, by the next message or by the end of the request. -/
theorem step_last_enabled {s : State} {r : Word} (h : Running s) (hr : resetAsserted s = false) (hp : s.ph = .xchg)
    (hx : s.xi = 11) (ha : peerReply s s.cfg.nullWord = .ok r) : ∃ t, step s = .next t := by
  obtain ⟨t, ht⟩ := h.addressed
  rw [step_last hr hp hx ht ha]
  split
  · exact ⟨_, rfl⟩
  · rw [echoCheck_received_last h hx]
    by_cases hn : s.mi.val + 1 < s.nmsg.val
    · obtain ⟨msg, u, hm, hu⟩ := h.next_routes hn
      exact ⟨_, nextMessage_start (m := ⟨s.mi.val + 1, by omega⟩) rfl hn hm hu⟩
    · exact ⟨_, nextMessage_finish (Nat.le_of_not_lt hn)⟩

theorem outWord_last {s : State} (hx : s.xi = 11) : outWord s = s.cfg.nullWord := by
  rw [outWord, dif_neg (by rw [hx]; decide)]

/-- An exchange step is enabled whatever the peer answers (R103, R268). -/
theorem step_xchg_enabled {s : State} (h : Running s) (hr : resetAsserted s = false) (hp : s.ph = .xchg) :
    ∃ t, step s = .next t := by
  cases ha : peerReply s (outWord s) with
  | fail => exact ⟨_, (step_of_exchange hr hp).trans (exchangeStep_fail (s := tickReset s) ha)⟩
  | ok r =>
    by_cases hx : s.xi.val < 11
    · exact ⟨_, step_stored hr hp hx ha⟩
    · have hx : s.xi = 11 := Fin.ext (by show s.xi.val = 11; omega)
      rw [outWord_last hx] at ha
      exact step_last_enabled h hr hp hx ha

/-- What follows a stored word uses the link no more. -/
theorem advance_link_untouched {s t : State} (h : advance s = .next t) : t.hist = s.hist ∧ t.xcount = s.xcount := by
  unfold advance at h
  split at h
  · cases h; exact ⟨rfl, rfl⟩
  · rcases endOfMessage_cases h with ⟨_, _, -, rfl⟩ | ⟨_, _, _, -, -, -, -, rfl⟩ | ⟨-, rfl⟩ <;> simp

/-- An exchange step is one exchange of the Word it sends (R50, R103). -/
theorem afterAnswer_link {w : Word} {a : LinkAnswer} {s t : State} (h : afterAnswer w a s = .next t) :
    t.hist = s.hist ++ [exchangeEvent w a] ∧ t.xcount = s.xcount + 1 := by
  cases a with
  | fail => cases h; exact ⟨rfl, rfl⟩
  | ok r =>
    have hlink := advance_link_untouched (s := exchanged w r s) h
    rwa [exchanged_hist, exchanged_xcount] at hlink

/-- Settles O28: whatever follows the exchange, its one event is of the Word sent. -/
theorem exchangeSendsTheNextWord : Obligations.ExchangeSendsTheNextWord := by
  refine ⟨fun s h hr hp => step_xchg_enabled (h.runs_in_xchg hp) hr hp, fun s t hr hp h => ?_⟩
  rw [step_of_exchange hr hp] at h
  obtain ⟨hhist, hcount⟩ := afterAnswer_link h
  refine ⟨outWord s, fun hx => dif_pos (by omega), fun hx => outWord_last (Fin.ext hx), hcount, ?_⟩
  cases ha : peerReply (tickReset s) (outWord (tickReset s)) with
  | ok r => rw [ha] at hhist; exact .inl ⟨r, hhist⟩
  | fail => rw [ha] at hhist; exact .inr hhist

end Sys2Proof.Machine
end

section
/-! SUPPORT. A whole message that the peer carries back, and a whole `XFER` (R109 to R112). -/

namespace Sys2Proof.Machine

/-! ### The twelve exchanges of a message -/

/-- What the twelve exchanges of a message carried back whole leave, another message following or not (R105 to R107, R111). -/
structure CarriedBack (s : State) (ans : Nat → Word) (peers : Nat → Peer) (u : State) : Prop where
  resp : u.resp = s.resp.set s.mi (Vector.ofFn fun p => ans (p.val + 1))
  respv : u.respv = s.respv.set s.mi true
  hist : u.hist = s.hist ++ (List.range 12).map fun j => .xchg (sentWord s j) (ans j)
  peer : u.peer = peers 12
  xcount : u.xcount = s.xcount + 12
  mask : u.mask = s.mask
  noError : statErr u.stat = 0#3
  sameEcho : statEcho u.stat = statEcho s.stat
  follows : s.mi.val + 1 < s.nmsg.val → u.ph ≠ .idle ∧ u.mi.val = s.mi.val + 1 ∧ statBusy u.stat = true
  ends : s.nmsg.val ≤ s.mi.val + 1 → u.ph = .idle ∧ statDone u.stat = true ∧ statBusy u.stat = false

/-- A running request's `STAT` records no error (R28). -/
theorem running_stat_fields {w : Word} (h : w = 0x0001#16 ∨ w = 0x0021#16) : statErr w = 0#3 ∧ statBusy w = true := by
  rcases h with rfl | rfl <;> decide

/-- The fields of `STAT` at the end of a request without error (R107). -/
theorem completeStat_fields {w : Word} (h : w = 0x0001#16 ∨ w = 0x0021#16) :
    statErr (completeStat w) = 0#3 ∧ statEcho (completeStat w) = statEcho w ∧ statDone (completeStat w) = true ∧
    statBusy (completeStat w) = false := by
  rcases h with rfl | rfl <;> decide

/-- The twelve exchanges of a running message whose markers and command echo come back right (R111). -/
theorem run_carriedBack {s : State} {t : Controller} {ans : Nat → Word} {peers : Nat → Peer} (hrun : Running s)
    (hA : Answers s ans peers) (hg : GoodFor s t ans) (hq : RstQuiet s) (hp : s.ph = .xchg) (hx : s.xi = 0)
    (ht : s.tgt = some t) : ∃ u, Host.Core.run core 12 s = .next u ∧ CarriedBack s ans peers u := by
  by_cases hn : s.mi.val + 1 < s.nmsg.val
  · obtain ⟨msg, v, hm, hv⟩ := hrun.next_routes hn
    obtain ⟨herr, hbusy⟩ := running_stat_fields hrun.stat
    refine ⟨_, run_message_next (m := ⟨s.mi.val + 1, by omega⟩) hA hq hp hx ht hg rfl hn hm hv, ?_⟩
    exact ⟨rfl, rfl, rfl, rfl, rfl, rfl, herr, rfl, fun _ => ⟨frameMessage_ph_ne_idle _ _ _, rfl, hbusy⟩,
      fun hlast => absurd hn (Nat.not_lt.mpr hlast)⟩
  · obtain ⟨herr, hecho, hdone, hbusy⟩ := completeStat_fields hrun.stat
    refine ⟨_, run_message_last hA hq hp hx ht hg (Nat.le_of_not_lt hn), ?_⟩
    rw [finishRequest_eq]
    exact ⟨rfl, rfl, rfl, rfl, rfl, rfl, herr, hecho, fun hnext => absurd hnext hn, fun _ => ⟨rfl, hdone, hbusy⟩⟩

/-- The current message's words are in `TX` (R102). -/
theorem Running.tx_eq {s : State} {t : Controller} {msg : Msg} (h : Running s) (ht : s.tgt = some t)
    (hm : (msgs s)[s.mi.val]? = some msg) : s.tx = messageWords s.cfg t msg.cw msg.d := by
  obtain ⟨msg', t', hm', -, ht', htx⟩ := h.framed
  obtain rfl : msg = msg' := Option.some.inj (hm.symm.trans hm')
  obtain rfl : t = t' := Option.some.inj (ht.symm.trans ht')
  exact htx

/-- Settles O35: a well-behaved peer carries the message framed in `TX` back. -/
theorem wellBehavedMessageDelivers : Obligations.WellBehavedMessageDelivers := by
  intro s t msg x r more h hq hp hx ht hm hpeer
  have hrun := h.runs_in_xchg hp
  obtain ⟨ans, peers, hA, hg, hmore, hresp, hevents⟩ := answers_good (hrun.tx_eq ht hm) hpeer
  obtain ⟨u, hu, hc⟩ := run_carriedBack hrun hA hg hq hp hx ht
  exact ⟨u, hu, hresp ▸ hc.resp, hc.respv, hevents ▸ hc.hist, hmore ▸ hc.peer, hc.xcount, hc.mask, hc.noError, hc.sameEcho,
    hc.follows, hc.ends⟩

/-- Settles O36: on exchange `k + 1` the loopback peer answers the word sent on exchange `k`, which is stored at position `k`. -/
theorem loopbackReturnsTheMessage : Obligations.LoopbackReturnsTheMessage := by
  intro s last t msg h hq hp hx ht hm hpeer
  have hrun := h.runs_in_xchg hp
  have htx := hrun.tx_eq ht hm
  obtain ⟨u, hu, hc⟩ := run_carriedBack hrun (answers_loopback hpeer) (loopback_good htx last) hq hp hx ht
  have hresp : u.resp = s.resp.set s.mi s.tx := by rw [hc.resp, loopback_response]
  refine ⟨u, hu, ?_, hresp, hc.respv, hc.peer, hc.noError, hc.sameEcho, fun hn => ?_, fun hn => ?_⟩
  · rw [hresp, htx]; rfl
  · obtain ⟨hph, hmi, -⟩ := hc.follows hn
    exact ⟨hph, hmi⟩
  · obtain ⟨hph, hdone, -⟩ := hc.ends hn
    exact ⟨hph, hdone⟩

/-! ### A whole `XFER` -/

/-- How many steps an `XFER` takes before its first exchange: its acceptance, and the settle wait of an analog readback (R160). -/
def xferLead (c : Cfg) (cw : Word) : Nat := if isAnalog (classify c cw) then 2 else 1

/-- The events of those steps. -/
def xferWaits (c : Cfg) (cw : Word) : List Event := if isAnalog (classify c cw) then [.settle c.tAdc] else []

/-- The state of `s` before the first exchange of an `XFER` to `t` that was presented in front of `rest`. -/
def xferReady (s : State) (rest : List (List Word)) (t : Controller) (cw : Word) (d : Payload) : State :=
  xferStarted { s with reqs := rest, rst := s.rst.drop (xferLead s.cfg cw), hist := s.hist ++ xferWaits s.cfg cw } t cw d false

theorem step_xfer_presented {s : State} {cw : Word} {d : Payload} {t : Controller} {rest : List (List Word)}
    (hw : s.cfg.wf = true) (hr : resetAsserted s = false) (hp : s.ph = .idle) (hq : s.reqs = encodeXfer cw d :: rest)
    (ht : routeOf s.cfg cw = some t) :
    step s = .next (xferStarted { s with reqs := rest, rst := s.rst.tail } t cw d (isAnalog (classify s.cfg cw))) := by
  have hexec := exec_xferInstr (s := { s with reqs := rest, rst := s.rst.tail }) hw cw d
  rw [step_of_decoded hr hp hq (decode_encodeXfer s.cfg cw d), hexec]
  exact acceptXfer_started (s := { s with reqs := rest, rst := s.rst.tail }) hp ht d

/-- The settle wait of an analog readback (R108, R160). -/
theorem step_xferStarted_wait {s : State} {t : Controller} {cw : Word} {d : Payload} (hr : resetAsserted s = false)
    (ha : isAnalog (classify s.cfg cw) = true) : step (xferStarted s t cw d true) =
      .next (xferStarted { s with rst := s.rst.tail, hist := s.hist ++ [.settle s.cfg.tAdc] } t cw d false) :=
  step_settled (msg := ⟨analogWait s.cfg cw, cw, d⟩) (d := s.cfg.tAdc) hr rfl rfl (if_pos ha)

/-- An `XFER` presented to an idle engine reaches its first exchange (R109). -/
theorem run_xferReady {s : State} {cw : Word} {d : Payload} {t : Controller} {rest : List (List Word)}
    (hw : s.cfg.wf = true) (hquiet : RstQuiet s) (hp : s.ph = .idle) (hq : s.reqs = encodeXfer cw d :: rest)
    (ht : routeOf s.cfg cw = some t) :
    Host.Core.run core (xferLead s.cfg cw) s = .next (xferReady s rest t cw d) := by
  have haccept := step_xfer_presented hw (quiet_now hquiet) hp hq ht
  unfold xferReady xferLead xferWaits
  cases ha : isAnalog (classify s.cfg cw) with
  | false =>
    rw [ha] at haccept
    refine (run_one haccept).trans ?_
    simp [← List.drop_one]
  | true =>
    rw [ha] at haccept
    have hnow : resetAsserted { s with reqs := rest, rst := s.rst.tail } = false := quiet_now (quiet_tick hquiet)
    refine (run_succ haccept 1).trans ((run_one (step_xferStarted_wait hnow ha)).trans ?_)
    simp [← List.drop_one]

/-- `STAT` at the end of a request that no wrong command echo marked (R107). -/
theorem completeStat_busy : completeStat 0x0001#16 = 0x0002#16 := by decide

/-- Settles O37: the acceptance and the wait lead to the message, whose twelve exchanges end the request. -/
theorem xferRunsToItsEnd : Obligations.XferRunsToItsEnd := by
  intro s cw d t x r more rest h hquiet hp hq ht hpeer
  obtain ⟨ans, peers, hA, hg, -, hresp, hevents⟩ := answers_good (s := xferReady s rest t cw d) (d := d) rfl hpeer
  have hquiet' : RstQuiet (xferReady s rest t cw d) := quiet_of_drop hquiet rfl
  have hsteps : (if isAnalog (classify s.cfg cw) then 14 else 13) = xferLead s.cfg cw + 12 := by
    unfold xferLead; split <;> rfl
  have hrun := (run_add (run_xferReady h.cfgWf hquiet hp hq ht) 12).trans
    (run_message_last hA hquiet' rfl rfl rfl hg (Nat.le_refl 1))
  rw [finishRequest_eq, ← hsteps] at hrun
  exact ⟨_, hrun, congrArg (fun v => s.resp.set 0 v) hresp, rfl, completeStat_busy, rfl, rfl,
    congrArg (s.hist ++ xferWaits s.cfg cw ++ ·) hevents, rfl, rfl, rfl, rfl, rfl⟩

end Sys2Proof.Machine
end

section
/-! SUPPORT. What the command-word decoder DEC answers (R120 to R123). -/

namespace Sys2Proof

/-! ### The class and the bank of a command word -/

/-- Whether a bank exists is a question about the low byte of a word of a banked class (R74, R122). -/
theorem bankValid_iff (c : Cfg) (cw : Word) :
    bankValid c cw = true ↔ ∃ k, classify c cw = some k ∧ k.format = .banked ∧ (subOf cw).toNat < c.numAbank := by
  rw [bankValid, Bool.and_eq_true, decide_eq_true_iff]
  cases classify c cw <;> simp [isBanked]

/-- Settles O5: at most one class's pattern matches a Word, and what a pattern asks for goes by its format. -/
theorem classifyIsThePattern : Obligations.ClassifyIsThePattern := by
  refine fun c cw hc => ⟨fun k => ?_, bankValid_iff c cw⟩
  rw [classify_eq_some hc]
  split
  next hf => exact cmdMatches_plain hf
  next hf => exact cmdMatches_banked hf

/-! ### The fields of a command word -/

/-- `CAT`, `FN` and `SUB` are all the bits of a command word (R73, R120). -/
theorem toNat_commandFields (cw : Word) :
    cw.toNat = (catOf cw).toNat * 4096 + (fnOf cw).toNat * 256 + (subOf cw).toNat := by
  have hlt := cw.isLt
  simp only [catOf, fnOf, subOf, BitVec.extractLsb'_toNat, Nat.shiftRight_eq_div_pow]
  omega

/-- Settles O6. -/
theorem decodeSplitsTheCommandWord : Obligations.DecodeSplitsTheCommandWord :=
  fun _ cw => ⟨rfl, rfl, rfl, rfl, rfl, toNat_commandFields cw⟩

end Sys2Proof

namespace Sys2Proof.Machine

/-! ### `DEC` -/

/-- The acceptance of `DEC` by an idle engine (R100, R123). -/
theorem exec_dec {s : State} (hp : s.ph = .idle) (cw : Word) :
    exec (.dec cw) s = .next { s with
      opr := 0x2, arg := s.arg.set 0 cw, decr0 := cw, decr1 := decodeResult s.cfg cw, stat := 0x0002 } := by
  rw [← latchArgs_one]
  exact acceptPure_valid hp 0x2#4 [cw] (decEffect cw)

/-- Settles O7: the Word `DEC` writes into `DECR1` has the class, controller and bank of the command word in its fields. -/
theorem decRecordsTheClass : Obligations.DecRecordsTheClass := by
  refine ⟨fun _ _ => rfl, fun cw s hp => ⟨_, exec_dec hp cw, ?_⟩, rfl, rfl, rfl, rfl⟩
  obtain ⟨hcls, htgtd, hbanked, hsubv, hanalog, hzero⟩ := decodeResult_fields s.cfg cw
  refine ⟨hcls, htgtd, hbanked, hsubv, ?_, hzero⟩
  rw [hanalog, isAnalog_iff, decide_eq_true_iff]

end Sys2Proof.Machine
end

section
/-! SUPPORT. Every named command word is sent to its controller, after a settle wait when it is an analog readback (R124, R160). -/

namespace Sys2Proof.Machine

/-- The command word of a class routes to the class's controller, whatever its bank (R8 item 3). -/
theorem routeOf_commandWord {c : Cfg} (h : c.wf = true) (k : CmdClass) (b : BitVec 8) :
    routeOf c (commandWord c k b) = some k.controller := by
  cases hf : k.format with
  | plain => rw [commandWord_plain hf]; exact routeOf_op h k
  | banked => rw [commandWord_banked hf]; exact routeOf_bankedWord h hf b

/-- The instruction of a class sends the class's command word to the class's controller (R124 to R158, R160). -/
theorem sends_commandInstr (k : CmdClass) (b : BitVec 8) :
    Sends (commandInstr k b) (commandWord · k b) k.controller (isAnalog (some k)) := by
  intro d s hw hp
  rw [exec_commandInstr, acceptXfer_started hp (routeOf_commandWord hw k b), classify_commandWord hw]

/-- Settles O14. -/
theorem housekeepingCommandsSend : Obligations.HousekeepingCommandsSend :=
  ⟨sends_commandInstr .hkReset 0, sends_commandInstr .hkPwr 0, sends_commandInstr .hkPres 0,
    sends_commandInstr .hkAdct 0, sends_commandInstr .hkCalt 0, sends_commandInstr .hkPbst 0,
    sends_commandInstr .hkDqrst 0, sends_commandInstr .hkCkrst 0, sends_commandInstr .hkI2crst 0⟩

/-- Settles O15: the low byte is the bank whether that bank exists or not, and a plain class has none. -/
theorem analogReadbacksWaitAndSend : Obligations.AnalogReadbacksWaitAndSend :=
  ⟨sends_commandInstr .hkVolt, sends_commandInstr .hkCurr, sends_commandInstr .hkEnv 0, sends_commandInstr .hkBrd 0⟩

/-- Settles O16. -/
theorem triggerCommandsSend : Obligations.TriggerCommandsSend :=
  ⟨sends_commandInstr .trNsset 0, sends_commandInstr .trNsrd 0, sends_commandInstr .trMask0 0,
    sends_commandInstr .trMask1 0, sends_commandInstr .trMask2 0, sends_commandInstr .trMask3 0,
    sends_commandInstr .trLttrd 0, sends_commandInstr .trHold 0, sends_commandInstr .trSwtrg 0,
    sends_commandInstr .trHwen 0, sends_commandInstr .trHwdis 0, sends_commandInstr .trCntrst 0,
    sends_commandInstr .trHit0 0, sends_commandInstr .trHit1 0, sends_commandInstr .trHit2 0,
    sends_commandInstr .trHit3 0, sends_commandInstr .trArrcfg 0, sends_commandInstr .trTack 0,
    sends_commandInstr .trSched 0, sends_commandInstr .trDiag 0⟩

end Sys2Proof.Machine
end

section
/-! SUPPORT. The decoding rules of the analog and the presence responses (R159, R161). -/

namespace Sys2Proof.Machine

/-- Every scale of a well-formed configuration has a positive denominator (R7). -/
theorem scaleOfRail_den_pos {c : Cfg} (h : c.wf = true) (r : Rail) : 0 < (scaleOfRail c r).den := by
  obtain ⟨h12V, hLv, hEnv⟩ := Cfg.scale_den_pos h
  cases r with
  | v12 => exact h12V
  | lowVoltage => exact hLv
  | environment => exact hEnv

/-- A scale times its denominator is its numerator (R7). -/
theorem scaleOf_mul_den {c : Cfg} (h : c.wf = true) (k : AnalogClass) (sub : BitVec 8) (j : Fin 8) :
    scaleOf c k sub j * ((scaleOfRail c (railOf c k sub j)).den : Rat) = (scaleOfRail c (railOf c k sub j)).num :=
  div_mul_cancel₀ _ (Nat.cast_ne_zero.mpr (scaleOfRail_den_pos h _).ne')

/-- Settles O57. -/
theorem analogValuesAreExactProducts : Obligations.AnalogValuesAreExactProducts := by
  intro c k sub j raw hc
  rw [analogDecode, mul_assoc, scaleOf_mul_den hc]

/-- The presence table of `REFCFG` (R81): 16 slots to a response position, from position 2. -/
theorem refCfg_pres (slot : Fin 32) :
    refCfg.pres[slot].pos.val = 2 + slot.val / 16 ∧ refCfg.pres[slot].bit.val = slot.val % 16 := by
  revert slot; decide

/-- Settles O58. -/
theorem presenceBitsOfReferenceTable : Obligations.PresenceBitsOfReferenceTable := by
  intro resp slot
  obtain ⟨hpos, hbit⟩ := refCfg_pres slot
  show resp[refCfg.pres[slot].pos.val].getLsbD refCfg.pres[slot].bit.val = _
  simp only [hpos, hbit]

end Sys2Proof.Machine
end

section
/-! SUPPORT. The trigger-mask generator TMG (R170 to R176): the three requests that build the mask, and the obligations about
them. -/

namespace Sys2Proof.Machine

/-- The acceptance of a valid request that builds the mask, written out (R100). -/
theorem acceptPure_mask {s : State} (hp : s.ph = .idle) (code : BitVec 4) (ops : List Word) (m : Vector Word 32) :
    acceptPure true code ops (fun s => { s with mask := m }) s =
      .next { s with opr := code, arg := latchArgs s.arg ops, mask := m, stat := 0x0002 } :=
  acceptPure_valid hp code ops _

/-! ### `TMDEF` -/

theorem exec_tmdef {s : State} (hp : s.ph = .idle) :
    exec .tmdef s = .next { s with opr := 0x3, mask := defaultMask, stat := 0x0002 } := by
  have haccept := acceptPure_mask hp 0x3#4 [] defaultMask
  rwa [latchArgs_nil] at haccept

/-- Settles O8. -/
theorem tmdefSetsTheDefault : Obligations.TmdefSetsTheDefault :=
  ⟨fun _ => rfl, fun _ => exec_tmdef, rfl⟩

/-! ### `TMSGL` -/

theorem exec_tmsgl {s : State} (hp : s.ph = .idle) {slot asic group : Word} (hs : slot.toNat ≤ 31) (ha : asic.toNat ≤ 3)
    (hg : group.toNat ≤ 3) : exec (.tmsgl slot asic group) s = .next { s with
      opr := 0x4, arg := ((s.arg.set 0 slot).set 1 asic).set 2 group, mask := singleMask slot asic group, stat := 0x0002 } := by
  have hvalid : tmsglValid slot asic group = true := by simp [tmsglValid, hs, ha, hg]
  have haccept := acceptPure_mask hp 0x4#4 [slot, asic, group] (singleMask slot asic group)
  rw [latchArgs_three, ← hvalid] at haccept
  exact haccept

/-- The folding rule as one number (R171). -/
theorem maskBit_eq (a g : Nat) : maskBit a g =
    if a % 2 = 0 then (if g ≤ 1 then 4 * a + g else 4 * (a + 1) + (g - 2))
    else (if 2 ≤ g then 4 * a + g else 4 * (a - 1) + (g + 2)) := by
  unfold maskBit foldField
  split <;> split <;> rfl

theorem singleMask_get (slot asic group : Word) (k : Fin 32) :
    (singleMask slot asic group)[k] =
      if k.val = slot.toNat then singleWord asic.toNat group.toNat else 0xFFFF#16 := by
  simp [singleMask]

/-- The word of the target has every bit set but the one of the folding rule (R172). -/
theorem singleWord_clear_iff (a g : Nat) (b : Fin 16) : (singleWord a g).getLsbD b.val = false ↔ b.val = maskBit a g := by
  have hones : (0xFFFF#16 : Word) = BitVec.allOnes 16 := rfl
  rw [singleWord, hones, BitVec.allOnes_and, BitVec.getLsbD_not, BitVec.getLsbD_shiftLeft,
    BitVec.getLsbD_one]
  simp only [b.isLt, decide_true, Bool.true_and, Bool.not_eq_false', Bool.and_eq_true, Bool.not_eq_true',
    decide_eq_false_iff_not, decide_eq_true_eq]
  omega

theorem singleMask_clear_iff (slot asic group : Word) (k : Fin 32) (b : Fin 16) :
    (singleMask slot asic group)[k].getLsbD b.val = false ↔
      k.val = slot.toNat ∧ b.val = maskBit asic.toNat group.toNat := by
  rw [singleMask_get]
  split
  next hk => rw [singleWord_clear_iff, and_iff_right hk]
  next hk =>
    have hset : (0xFFFF#16 : Word).getLsbD b.val = true := by revert b; decide
    simp [hset, hk]

/-- Settles O9. -/
theorem tmsglBuildsSingleTarget : Obligations.TmsglBuildsSingleTarget := by
  intro slot asic group s hp hs ha hg
  refine ⟨_, exec_tmsgl hp hs ha hg, fun k => ?_⟩
  rw [singleMask_get, singleWord, maskBit_eq]

/-- Settles O10: the words of the other slots have no bit 0, the target's word has the one of the folding rule. -/
theorem tmsglClearsExactlyOneBit : Obligations.TmsglClearsExactlyOneBit := by
  intro slot asic group s hp hs ha hg
  refine ⟨_, exec_tmsgl hp hs ha hg, fun k b => ?_⟩
  rw [← maskBit_eq]
  exact singleMask_clear_iff slot asic group k b

/-! ### `TMBLK` -/

theorem exec_tmblk {s : State} (hp : s.ph = .idle) (vlo vhi : Word) : exec (.tmblk vlo vhi) s = .next { s with
      opr := 0x5, arg := (s.arg.set 0 vlo).set 1 vhi, mask := bulkMask (bulkVector vlo vhi), stat := 0x0002 } := by
  have haccept := acceptPure_mask hp 0x5#4 [vlo, vhi] (bulkMask (bulkVector vlo vhi))
  rwa [latchArgs_two] at haccept

/-- The bit of slot `k` is in `vlo` for the lower 16 slots and in `vhi` for the upper 16 (R175). -/
theorem bulkMask_get (vlo vhi : Word) (k : Fin 32) : (bulkMask (bulkVector vlo vhi))[k] =
    if (if k.val < 16 then vlo.getLsbD k.val else vhi.getLsbD (k.val - 16)) then 0x0000#16 else 0xFFFF#16 := by
  simp only [bulkMask, bulkVector, Fin.getElem_fin, Vector.getElem_ofFn, BitVec.getLsbD_append]

/-- Settles O11. -/
theorem tmblkDisablesMarkedSlots : Obligations.TmblkDisablesMarkedSlots :=
  ⟨fun _ _ _ => rfl, fun vlo vhi _ hp => ⟨_, exec_tmblk hp vlo vhi, bulkMask_get vlo vhi⟩⟩

/-! ### The string form of `TMBLK` -/

/-- Bit `k` of a half tells whether its character `k` is `'1'` (R89). -/
theorem bulkHalf_getLsbD (chars : List Char) (k : Nat) (hk : k < 16) :
    (bulkHalf chars).getLsbD k = (chars[k]? == some '1') := by
  induction chars generalizing k with
  | nil => simp [bulkHalf]
  | cons ch rest ih =>
    cases k with
    | zero => by_cases h : ch = '1' <;> simp [bulkHalf, bitWord, h]
    | succ k =>
      have hlow : (bitWord (ch == '1')).getLsbD (k + 1) = false := by
        unfold bitWord; split <;> simp
      rw [bulkHalf, BitVec.getLsbD_or, hlow, BitVec.getLsbD_shiftLeft, Nat.add_sub_cancel, ih k (by omega)]
      simp [hk]

/-- The bit of slot `k` tells whether character `k` of the string is `'1'` (R89, R175). -/
theorem bulkHalves_bit (chars : List Char) (k : Fin 32) :
    (if k.val < 16 then (bulkHalf (chars.take 16)).getLsbD k.val else (bulkHalf (chars.drop 16)).getLsbD (k.val - 16)) =
      (chars[k.val]? == some '1') := by
  split
  next hk => rw [bulkHalf_getLsbD _ _ hk, List.getElem?_take_of_lt hk]
  next hk => rw [bulkHalf_getLsbD _ _ (by omega), List.getElem?_drop, Nat.add_sub_of_le (by omega)]

/-- Settles O12: the two halves of a 32-character string are the operands of the `TMBLK` it stands for. -/
theorem bulkStringDisablesMarkedSlots : Obligations.BulkStringDisablesMarkedSlots := by
  refine ⟨fun chars hlen => if_neg hlen, fun chars hlen => ⟨_, _, if_pos hlen, fun s hp => ?_⟩⟩
  refine ⟨_, exec_tmblk hp _ _, fun k => ?_⟩
  have hk : k.val < chars.length := by omega
  show (bulkMask _)[k] = _
  rw [bulkMask_get, bulkHalves_bit, List.getElem?_eq_getElem hk]
  simp

end Sys2Proof.Machine
end

section
/-! SUPPORT. `TMSEND`: its acceptance, and its whole run against the loopback peer (R65, R66, R177, R178). -/

namespace Sys2Proof.Machine

/-! ### The four messages -/

/-- The class of the command word that sends bank `b` of the mask (R177). -/
def maskClass : Fin 4 → CmdClass
  | 0 => .trMask0
  | 1 => .trMask1
  | 2 => .trMask2
  | 3 => .trMask3

theorem maskClass_controller (b : Fin 4) : (maskClass b).controller = .trg := by revert b; decide

/-- The message of bank `b` of the mask (R177). -/
def bankMsg (c : Cfg) (mask : Vector Word 32) (b : Fin 4) : Msg := ⟨none, c.op (maskClass b), maskPayload mask b⟩

theorem tmsendMsgs_get (c : Cfg) (mask : Vector Word 32) (b : Fin 4) :
    (tmsendMsgs c mask)[b.val]? = some (bankMsg c mask b) := by
  fin_cases b <;> rfl

/-- The message of every bank routes to the trigger controller (R8 item 3). -/
theorem routeOf_bankMsg {c : Cfg} (h : c.wf = true) (mask : Vector Word 32) (b : Fin 4) :
    routeOf c (bankMsg c mask b).cw = some .trg :=
  (routeOf_op h (maskClass b)).trans (congrArg some (maskClass_controller b))

/-! ### The acceptance -/

/-- `s` right after the acceptance of a `TMSEND`. -/
def tmsendStarted (s : State) : State :=
  linkStarted s 0x6 s.arg 4 .trg (s.cfg.op .trMask0) (maskPayload s.mask 0) false

/-- The acceptance of `TMSEND` (R100, R177). -/
theorem exec_tmsend {s : State} (hw : s.cfg.wf = true) (hp : s.ph = .idle) : exec .tmsend s = .next (tmsendStarted s) := by
  have haccept := acceptLink_linkStarted hp 0x6#4 [] (msg := bankMsg s.cfg s.mask 0) (n := 4) rfl
    (routeOf_bankMsg hw s.mask 0) rfl
  rw [latchArgs_nil] at haccept
  exact haccept

/-- Settles O17. -/
theorem tmsendStartsBankZero : Obligations.TmsendStartsBankZero := fun _ => exec_tmsend

/-! ### One bank against the loopback peer -/

/-- `s` at the beginning of the message of bank `b`. -/
def atBank (b : Fin 4) (s : State) : State := frameMessage .trg (bankMsg s.cfg s.mask b) (setMi b s)

/-- The events of bank `b` sent to the loopback peer that answers `last` first (R66). -/
def bankEvents (c : Cfg) (mask : Vector Word 32) (last : Word) (b : Fin 4) : List Event :=
  goodEvents c .trg (c.op (maskClass b)) (maskPayload mask b) last (maskPayload mask b)

/-- What sending bank `b` to the loopback peer that answers `last` first leaves of `s`, but for the registers that hold the
message in progress: the bank comes back whole (R66, R178). -/
def bankSent (last : Word) (b : Fin 4) (s : State) : State :=
  { s with
    rst := s.rst.drop 12
    hist := s.hist ++ bankEvents s.cfg s.mask last b
    peer := .loopback s.cfg.nullWord
    xcount := s.xcount + 12
    resp := s.resp.set b.val (messageWords s.cfg .trg (s.cfg.op (maskClass b)) (maskPayload s.mask b))
    respv := s.respv.set b.val true }

/-- A `TMSEND` runs without reset against the loopback peer, which answers `last` next. -/
structure TmsendRuns (last : Word) (s : State) : Prop where
  cfgWf : s.cfg.wf = true
  quiet : RstQuiet s
  opr : s.opr = 0x6#4
  nmsg : s.nmsg = 4
  peer : s.peer = .loopback last

theorem TmsendRuns.after_bank {last : Word} {s : State} (h : TmsendRuns last s) (b : Fin 4) :
    TmsendRuns s.cfg.nullWord (bankSent last b s) :=
  ⟨h.cfgWf, quiet_of_drop h.quiet rfl, h.opr, h.nmsg, rfl⟩

theorem TmsendRuns.msgs_eq {last : Word} {s : State} (h : TmsendRuns last s) : msgs s = tmsendMsgs s.cfg s.mask := by
  rw [msgs, h.opr]; rfl

/-- The events of a message to the loopback peer: each word comes back one exchange later (R65, R66). -/
theorem loopback_events {s : State} {t : Controller} {cw : Word} {d : Payload} (htx : s.tx = messageWords s.cfg t cw d)
    (last : Word) : ((List.range 12).map fun j => Event.xchg (sentWord s j) (if j = 0 then last else sentWord s (j - 1))) =
      goodEvents s.cfg t cw d last d := by
  simp only [sentWord, htx]; rfl

/-- What the loopback peer answers over the message of bank `b`. -/
def bankAnswer (last : Word) (b : Fin 4) (s : State) (k : Nat) : Word :=
  if k = 0 then last else sentWord (atBank b s) (k - 1)

theorem bankAnswers {last : Word} {s : State} (h : TmsendRuns last s) (b : Fin 4) :
    Answers (atBank b s) (bankAnswer last b s) (fun k => .loopback (bankAnswer last b s k)) := answers_loopback h.peer

theorem bankAnswer_good (last : Word) (b : Fin 4) (s : State) : GoodFor (atBank b s) .trg (bankAnswer last b s) :=
  loopback_good rfl last

/-- Twelve exchanges of bank `b` send it and store it (R66, R104, R105). -/
theorem delivered_atBank (last : Word) (b : Fin 4) (s : State) :
    delivered (atBank b s) (bankAnswer last b s) (fun k => .loopback (bankAnswer last b s k)) =
      setXi 11 (atBank b (bankSent last b s)) := by
  apply state_ext
  case h5 => exact congrArg (s.resp.set b.val · b.isLt) (loopback_response (atBank b s) last)
  case h17 => exact congrArg (s.hist ++ ·) (loopback_events (s := atBank b s) rfl last)
  all_goals rfl

/-- Twelve exchanges of a bank that another one follows (R107). -/
theorem run_bank_next {last : Word} {s : State} (h : TmsendRuns last s) {b c : Fin 4} (hc : c.val = b.val + 1) :
    Host.Core.run core 12 (atBank b s) = .next (atBank c (bankSent last b s)) := by
  have hn : c.val < (atBank b s).nmsg.val := by
    show c.val < s.nmsg.val
    rw [h.nmsg]; exact c.isLt
  have hm : (msgs (atBank b s))[c.val]? = some (bankMsg s.cfg s.mask c) := by
    show (msgs s)[c.val]? = _
    rw [h.msgs_eq, tmsendMsgs_get]
  rw [run_message_next (bankAnswers h b) h.quiet rfl rfl rfl (bankAnswer_good last b s) hc hn hm
    (routeOf_bankMsg h.cfgWf s.mask c), delivered_atBank]
  rfl

/-- Twelve exchanges of the last bank end the request (R107). -/
theorem run_bank_last {last : Word} {s : State} (h : TmsendRuns last s) :
    Host.Core.run core 12 (atBank 3 s) = .next (finishRequest (setXi 11 (atBank 3 (bankSent last 3 s)))) := by
  have hn : (atBank 3 s).nmsg.val ≤ (atBank 3 s).mi.val + 1 := by
    show s.nmsg.val ≤ 4
    omega
  rw [run_message_last (bankAnswers h 3) h.quiet rfl rfl rfl (bankAnswer_good last 3 s) hn, delivered_atBank]

/-! ### The whole request -/

/-- `s` after all four banks were sent to the loopback peer that answers `last` first. -/
def banksSent (last : Word) (s : State) : State :=
  bankSent s.cfg.nullWord 3 (bankSent s.cfg.nullWord 2 (bankSent s.cfg.nullWord 1 (bankSent last 0 s)))

/-- The 48 exchanges of a `TMSEND` (R177). -/
theorem run_banks {last : Word} {s : State} (h : TmsendRuns last s) :
    Host.Core.run core 48 (atBank 0 s) = .next (finishRequest (setXi 11 (atBank 3 (banksSent last s)))) := by
  have h1 := h.after_bank 0
  have h2 := h1.after_bank 1
  have h3 := h2.after_bank 2
  exact (run_add (run_bank_next h rfl) 36).trans <| (run_add (run_bank_next h1 rfl) 24).trans <|
    (run_add (run_bank_next h2 rfl) 12).trans (run_bank_last h3)

/-- The data words of the message of bank `b` are the mask words `8b` to `8b + 7` (R75, R177). -/
theorem bankMessage_word (c : Cfg) (t : Controller) (cw : Word) (mask : Vector Word 32) (b : Fin 4) (j : Fin 8) :
    (messageWords c t cw (maskPayload mask b))[2 + j.val] = mask[bankSlot b j] := by
  fin_cases j <;> rfl

/-- The mask readback is the mask when every bank came back in its response (R31, R178). -/
theorem rdbk_eq_mask {s : State} {mask : Vector Word 32} (h : ∀ b : Fin 4, ∃ c t cw,
    s.resp[b] = messageWords c t cw (maskPayload mask b)) : rdbk s = mask := by
  apply Vector.ext
  intro i hi
  obtain ⟨b, j, rfl⟩ : ∃ (b : Fin 4) (j : Fin 8), i = 8 * b.val + j.val :=
    ⟨⟨i / 8, by omega⟩, ⟨i % 8, by omega⟩, (Nat.div_add_mod i 8).symm⟩
  obtain ⟨c, t, cw, hb⟩ := h b
  rw [rdbk_bank]
  simp only [hb]
  exact bankMessage_word c t cw mask b j

/-- Each bank is in the response of its message (R178). -/
theorem banksSent_resp (last : Word) (s : State) (b : Fin 4) : (banksSent last s).resp[b] =
    messageWords s.cfg .trg (s.cfg.op (maskClass b)) (maskPayload s.mask b) := by
  fin_cases b <;> simp [banksSent, bankSent]

/-- The accept step of a `TMSEND` presented to an idle engine (R100, R177). -/
theorem step_tmsend {s : State} {rest : List (List Word)} (hw : s.cfg.wf = true) (hr : resetAsserted s = false)
    (hp : s.ph = .idle) (hq : s.reqs = [0x0006] :: rest) :
    step s = .next (tmsendStarted { s with reqs := rest, rst := s.rst.tail }) := by
  rw [step_of_decoded hr hp hq (i := .tmsend) rfl]
  exact exec_tmsend (s := { s with reqs := rest, rst := s.rst.tail }) hw hp

/-- Settles O39: after the acceptance each bank goes out and comes back in twelve exchanges, the last of which end the
request. -/
theorem tmsendReadsBackUnderLoopback : Obligations.TmsendReadsBackUnderLoopback := by
  intro s last rest h hquiet hp hq hpeer
  have hruns : TmsendRuns last (tmsendStarted { s with reqs := rest, rst := s.rst.tail }) :=
    ⟨h.cfgWf, quiet_tick hquiet, rfl, rfl, hpeer⟩
  have hrun := (run_succ (step_tmsend h.cfgWf (quiet_now hquiet) hp hq) 48).trans (run_banks hruns)
  rw [finishRequest_eq] at hrun
  exact ⟨_, hrun, rfl, completeStat_busy, rdbk_eq_mask fun b => ⟨_, _, _, banksSent_resp last _ b⟩, rfl, rfl, rfl, rfl,
    rfl⟩

end Sys2Proof.Machine
end

section
/-! SUPPORT. The hit-pattern decoder: where each word and each bit goes (R187, R189), the encoder that takes them back (R191), and
the four obligations about them. -/

namespace Sys2Proof.Machine

/-! ### Reordering -/

@[simp] theorem reorder_get (raw : Vector Word 32) (p : Nat) (hp : p < 32) : (reorder raw)[p] = raw[31 - p] := by
  simp [reorder, mirror]

@[simp] theorem unreorder_get (hp : Vector Word 32) (i : Nat) (hi : i < 32) : (unreorder hp)[i] = hp[31 - i] := by
  simp [unreorder, mirror]

theorem unreorder_reorder (raw : Vector Word 32) : unreorder (reorder raw) = raw := by
  apply Vector.ext
  intro i hi
  simp only [unreorder_get, reorder_get, show 31 - (31 - i) = i by omega]

theorem reorder_unreorder (hp : Vector Word 32) : reorder (unreorder hp) = hp := by
  apply Vector.ext
  intro i hi
  simp only [unreorder_get, reorder_get, show 31 - (31 - i) = i by omega]

/-- Settles O51: the second clause is the first one on the data words of the responses. -/
theorem reorderReversesTheCaptures : Obligations.ReorderReversesTheCaptures := by
  refine ⟨fun raw i => ?_, reorder_respData⟩
  simp only [reorder_get, show 31 - (31 - i.val) = i.val by omega, Fin.getElem_fin]

/-! ### Lanes -/

theorem wordLanes_get (w : Word) (l n : Fin 4) : (wordLanes w)[l][n] = w.getLsbD (4 * n.val + l.val) := by
  simp [wordLanes]

theorem lanes_get (hp : Vector Word 32) (p : Fin 32) : (lanes hp)[p] = wordLanes hp[p] := by simp [lanes]

/-- A bit that stands at two places of every word stands at one place. -/
theorem place_unique {i j : Nat} (hj : j < 16) (h : ∀ w : Word, w.getLsbD i = w.getLsbD j) : i = j := by
  have hbit := h (BitVec.twoPow 16 j)
  simp only [BitVec.getLsbD_twoPow, hj, decide_true, Bool.true_and] at hbit
  exact (of_decide_eq_true hbit).symm

/-- Settles O53: bit `b` is nibble `b / 4` of lane `b % 4`, and no other place of the lanes is that bit. -/
theorem lanesTakeOneBitOfEachNibble : Obligations.LanesTakeOneBitOfEachNibble := by
  refine ⟨fun hp p l n => ?_, fun b => ⟨⟨b.val % 4, by omega⟩, ⟨b.val / 4, by omega⟩, fun w => ?_, fun l n h => ?_⟩,
    fun w l => ?_⟩
  · rw [lanes_get, wordLanes_get]
  · rw [wordLanes_get, Nat.div_add_mod]
  · have hplace : 4 * n.val + l.val = b.val := place_unique b.isLt fun w => (wordLanes_get w l n).symm.trans (h w)
    exact ⟨Fin.ext (by show l.val = b.val % 4; omega), Fin.ext (by show n.val = b.val / 4; omega)⟩
  · simp [laneNumber, wordLanes, Nat.add_comm]

/-! ### Words from lanes -/

/-- A lane bit stands at its own place and nowhere else. -/
theorem laneBit_getLsbD (b : Bool) (l n : Fin 4) (i : Nat) :
    (laneBit b l n).getLsbD i = (decide (i = 4 * n.val + l.val) && b) := by
  cases b
  · simp [laneBit, bitWord]
  · have hplace : 4 * n.val + l.val < 16 := by omega
    show (BitVec.twoPow 16 (4 * n.val + l.val)).getLsbD i = _
    simp [BitVec.getLsbD_twoPow, hplace, eq_comm]

/-- The word of lane `l'` holds, at the places of lane `l'`, the bits of the lane, and nothing at the places of the others. -/
theorem laneWord_getLsbD (lane : Vector Bool 4) (l' l n : Fin 4) :
    (laneWord lane l').getLsbD (4 * n.val + l.val) = (decide (l = l') && lane[n]) := by
  have hplace : ∀ n' : Fin 4, decide (4 * n.val + l.val = 4 * n'.val + l'.val) = (decide (n = n') && decide (l = l')) := by
    intro n'
    rw [← Bool.decide_and, decide_eq_decide, Fin.ext_iff, Fin.ext_iff]
    omega
  simp only [laneWord, BitVec.getLsbD_or, laneBit_getLsbD, hplace]
  fin_cases n <;> simp

/-- `Unlanes` of one word, bit by bit (R191). -/
theorem unlaneWord_getLsbD (h : Vector (Vector Bool 4) 4) (l n : Fin 4) :
    (unlaneWord h).getLsbD (4 * n.val + l.val) = h[l][n] := by
  simp only [unlaneWord, BitVec.getLsbD_or, laneWord_getLsbD]
  fin_cases l <;> simp

theorem unlanes_get (h : HitArray) (p : Fin 32) : (unlanes h)[p] = unlaneWord h[p] := by simp [unlanes]

/-! ### The encoder and the decoder -/

theorem wordLanes_unlaneWord (h : Vector (Vector Bool 4) 4) : wordLanes (unlaneWord h) = h := by
  apply Vector.ext; intro l hl
  apply Vector.ext; intro n hn
  exact (wordLanes_get _ ⟨l, hl⟩ ⟨n, hn⟩).trans (unlaneWord_getLsbD h ⟨l, hl⟩ ⟨n, hn⟩)

theorem unlaneWord_wordLanes (w : Word) : unlaneWord (wordLanes w) = w := by
  apply BitVec.eq_of_getLsbD_eq
  intro i hi
  have hbit := (unlaneWord_getLsbD (wordLanes w) ⟨i % 4, by omega⟩ ⟨i / 4, by omega⟩).trans (wordLanes_get w _ _)
  rwa [Nat.div_add_mod] at hbit

theorem lanes_unlanes (h : HitArray) : lanes (unlanes h) = h := by
  apply Vector.ext; intro p hp
  exact (lanes_get _ ⟨p, hp⟩).trans ((congrArg wordLanes (unlanes_get h ⟨p, hp⟩)).trans (wordLanes_unlaneWord _))

theorem unlanes_lanes (hp : Vector Word 32) : unlanes (lanes hp) = hp := by
  apply Vector.ext; intro p h
  exact (unlanes_get _ ⟨p, h⟩).trans ((congrArg unlaneWord (lanes_get hp ⟨p, h⟩)).trans (unlaneWord_wordLanes _))

/-- The encoder inverts the decoder (R191). -/
theorem encodeHp_decodeHp (raw : Vector Word 32) : encodeHp (decodeHp raw) = raw := by
  rw [encodeHp, decodeHp, unlanes_lanes, unreorder_reorder]

/-- The decoder inverts the encoder (R191). -/
theorem decodeHp_encodeHp (h : HitArray) : decodeHp (encodeHp h) = h := by
  rw [encodeHp, decodeHp, reorder_unreorder, lanes_unlanes]

/-- Settles O54: reordering and lane extraction are each undone by their own inverse. -/
theorem hitPatternRoundTrips : Obligations.HitPatternRoundTrips := by
  refine ⟨fun h p l n => ?_, fun hp i => unreorder_get hp i.val i.isLt, fun _ => rfl, fun _ => rfl, encodeHp_decodeHp,
    decodeHp_encodeHp⟩
  rw [unlanes_get, unlaneWord_getLsbD]

/-- Where a lane bit of the decoded pattern comes from in the raw capture (R187, R189). -/
theorem decodeHp_get (raw : Vector Word 32) (p : Fin 32) (l n : Fin 4) :
    (decodeHp raw)[p][l][n] = raw[31 - p.val].getLsbD (4 * n.val + l.val) := by
  rw [decodeHp, lanes_get, wordLanes_get, Fin.getElem_fin, reorder_get]

/-- Settles O55: place 24 of the raw capture is place 7 of the pattern, and 0x0008 is bit 3 alone. -/
theorem singleHitDecodesToOneLane : Obligations.SingleHitDecodesToOneLane := by
  have hbit : ∀ l n : Fin 4, (0x0008#16 : Word).getLsbD (4 * n.val + l.val) = true ↔ l = 3 ∧ n = 0 := by decide
  refine ⟨by simp, fun p l n => ?_⟩
  have hplace : 24 = 31 - p.val ↔ p = 7 := by
    rw [Fin.ext_iff]
    show _ ↔ p.val = 7
    omega
  rw [decodeHp_get, Vector.getElem_set]
  by_cases hp : p = 7
  · rw [if_pos (hplace.mpr hp), hbit]
    simp [hp]
  · rw [if_neg (hplace.not.mpr hp), Vector.getElem_replicate]
    simp [hp]

end Sys2Proof.Machine
end

section
/-! SUPPORT. A message that a well-behaved peer carries back (R57, R111); `HPCAP`: its acceptance, and its whole run against such
a peer (R185 to R188). -/

namespace Sys2Proof.Machine

/-! ### One message against a well-behaved peer -/

/-- What the message of command word `cw` and payload `d` to `t`, carried back with the words `x` and `r` by a peer that then has
the answers `more`, leaves of `s`, but for the registers that hold the message in progress: its response is in buffer `m`. -/
def answered (t : Controller) (m : Fin 4) (cw : Word) (d : Payload) (x : Word) (r : Payload) (more : List LinkAnswer)
    (s : State) : State :=
  { s with
    rst := s.rst.drop 12
    hist := s.hist ++ goodEvents s.cfg t cw d x r
    peer := .oracle more
    xcount := s.xcount + 12
    resp := s.resp.set m.val (goodResponse s.cfg t cw r)
    respv := s.respv.set m.val true }

/-- A peer well behaved for the message framed in `s` delivers its response (R104, R105, R111). -/
theorem delivered_answered {s : State} {t : Controller} {cw x : Word} {d r : Payload} {more : List LinkAnswer}
    (htx : s.tx = messageWords s.cfg t cw d) (hpeer : s.peer = .oracle (goodAnswers s.cfg t cw x r ++ more)) :
    ∃ ans peers, Answers s ans peers ∧ GoodFor s t ans ∧
      delivered s ans peers = setXi 11 (answered t s.mi cw d x r more s) := by
  obtain ⟨ans, peers, hA, hg, hmore, hresp, hevents⟩ := answers_good htx hpeer
  refine ⟨ans, peers, hA, hg, ?_⟩
  apply state_ext
  case h5 => exact congrArg (s.resp.set s.mi.val · s.mi.isLt) hresp
  case h17 => exact congrArg (s.hist ++ ·) hevents
  case h20 => exact hmore
  all_goals rfl

/-- Twelve exchanges of a message that a well-behaved peer carries back and that another one follows (R107, R111). -/
theorem run_answered_next {s : State} {t u : Controller} {cw x : Word} {d r : Payload} {more : List LinkAnswer} {msg : Msg}
    {m : Fin 4} (htx : s.tx = messageWords s.cfg t cw d) (hpeer : s.peer = .oracle (goodAnswers s.cfg t cw x r ++ more))
    (hq : RstQuiet s) (hp : s.ph = .xchg) (hx : s.xi = 0) (ht : s.tgt = some t) (he : m.val = s.mi.val + 1)
    (hn : m.val < s.nmsg.val) (hm : (msgs s)[m.val]? = some msg) (hr : routeOf s.cfg msg.cw = some u) :
    Host.Core.run core 12 s = .next (frameMessage u msg (setMi m (answered t s.mi cw d x r more s))) := by
  obtain ⟨ans, peers, hA, hg, hdelivered⟩ := delivered_answered htx hpeer
  rw [run_message_next hA hq hp hx ht hg he hn hm hr, hdelivered]
  rfl

/-- Twelve exchanges of a request's last message that a well-behaved peer carries back (R107, R111). -/
theorem run_answered_last {s : State} {t : Controller} {cw x : Word} {d r : Payload} {more : List LinkAnswer}
    (htx : s.tx = messageWords s.cfg t cw d) (hpeer : s.peer = .oracle (goodAnswers s.cfg t cw x r ++ more))
    (hq : RstQuiet s) (hp : s.ph = .xchg) (hx : s.xi = 0) (ht : s.tgt = some t) (hn : s.nmsg.val ≤ s.mi.val + 1) :
    Host.Core.run core 12 s = .next (finishRequest (setXi 11 (answered t s.mi cw d x r more s))) := by
  obtain ⟨ans, peers, hA, hg, hdelivered⟩ := delivered_answered htx hpeer
  rw [run_message_last hA hq hp hx ht hg hn, hdelivered]

/-! ### The four captures -/

/-- The class of the command word of capture `q` (R186). -/
def hitClass : Fin 4 → CmdClass
  | 0 => .trHit0
  | 1 => .trHit1
  | 2 => .trHit2
  | 3 => .trHit3

theorem hitClass_controller (q : Fin 4) : (hitClass q).controller = .trg := by revert q; decide

/-- The message of capture `q` (R186). -/
def captureMsg (c : Cfg) (q : Fin 4) : Msg := ⟨none, c.op (hitClass q), fillPayload c⟩

theorem hpcapMsgs_get (c : Cfg) (q : Fin 4) : (hpcapMsgs c)[q.val]? = some (captureMsg c q) := by
  fin_cases q <;> rfl

/-- The message of every capture routes to the trigger controller (R8 item 3). -/
theorem routeOf_captureMsg {c : Cfg} (h : c.wf = true) (q : Fin 4) : routeOf c (captureMsg c q).cw = some .trg :=
  (routeOf_op h (hitClass q)).trans (congrArg some (hitClass_controller q))

/-! ### The acceptance -/

/-- `s` right after the acceptance of an `HPCAP`. -/
def hpcapStarted (s : State) : State :=
  { linkStarted s 0x7 s.arg 4 .trg (s.cfg.op .trHit0) (fillPayload s.cfg) false with hpv := false }

/-- The acceptance of `HPCAP` (R100, R186). -/
theorem exec_hpcap {s : State} (hw : s.cfg.wf = true) (hp : s.ph = .idle) : exec .hpcap s = .next (hpcapStarted s) := by
  have haccept := acceptLink_linkStarted hp 0x7#4 [] (msg := captureMsg s.cfg 0) (n := 4) rfl
    (routeOf_captureMsg hw 0) rfl
  rw [latchArgs_nil] at haccept
  exact haccept

/-- Settles O18. -/
theorem hpcapStartsCaptureZero : Obligations.HpcapStartsCaptureZero := fun _ => exec_hpcap

/-- The accept step of an `HPCAP` presented to an idle engine (R100, R186). -/
theorem step_hpcap {s : State} {rest : List (List Word)} (hw : s.cfg.wf = true) (hr : resetAsserted s = false)
    (hp : s.ph = .idle) (hq : s.reqs = [0x0007] :: rest) :
    step s = .next (hpcapStarted { s with reqs := rest, rst := s.rst.tail }) := by
  rw [step_of_decoded hr hp hq (i := .hpcap) rfl]
  exact exec_hpcap (s := { s with reqs := rest, rst := s.rst.tail }) hw hp

/-! ### One capture -/

/-- `s` at the beginning of the message of capture `q`. -/
def atCapture (q : Fin 4) (s : State) : State := frameMessage .trg (captureMsg s.cfg q) (setMi q s)

/-- What capture `q` with the data words `r` leaves of `s`, but for the registers that hold the message in progress. -/
def captured (q : Fin 4) (x : Word) (r : Payload) (more : List LinkAnswer) (s : State) : State :=
  answered .trg q (s.cfg.op (hitClass q)) (fillPayload s.cfg) x r more s

/-- What a well-behaved peer answers in capture `q` (R57). -/
def captureAnswers (c : Cfg) (q : Fin 4) (x : Word) (r : Payload) : List LinkAnswer :=
  goodAnswers c .trg (c.op (hitClass q)) x r

/-- An `HPCAP` runs without reset before a peer that answers `l`. -/
structure HpcapRuns (l : List LinkAnswer) (s : State) : Prop where
  cfgWf : s.cfg.wf = true
  quiet : RstQuiet s
  opr : s.opr = 0x7#4
  nmsg : s.nmsg = 4
  peer : s.peer = .oracle l

section
variable {q : Fin 4} {x : Word} {r : Payload} {more : List LinkAnswer} {s : State}

theorem HpcapRuns.after_capture {l : List LinkAnswer} (h : HpcapRuns l s) (q : Fin 4) (x : Word) (r : Payload)
    (more : List LinkAnswer) : HpcapRuns more (captured q x r more s) :=
  ⟨h.cfgWf, quiet_of_drop h.quiet rfl, h.opr, h.nmsg, rfl⟩

theorem HpcapRuns.msgs_eq {l : List LinkAnswer} (h : HpcapRuns l s) : msgs s = hpcapMsgs s.cfg := by
  rw [msgs, h.opr]; rfl

/-- Twelve exchanges of a capture that another one follows (R107). -/
theorem run_capture_next (h : HpcapRuns (captureAnswers s.cfg q x r ++ more) s) {q' : Fin 4} (hq : q'.val = q.val + 1) :
    Host.Core.run core 12 (atCapture q s) = .next (atCapture q' (captured q x r more s)) := by
  have hn : q'.val < (atCapture q s).nmsg.val := by
    show q'.val < s.nmsg.val
    rw [h.nmsg]; exact q'.isLt
  have hm : (msgs (atCapture q s))[q'.val]? = some (captureMsg s.cfg q') := by
    show (msgs s)[q'.val]? = _
    rw [h.msgs_eq, hpcapMsgs_get]
  exact run_answered_next (s := atCapture q s) rfl h.peer h.quiet rfl rfl rfl hq hn hm (routeOf_captureMsg h.cfgWf q')

/-- Twelve exchanges of the last capture end the request (R107). -/
theorem run_capture_last (h : HpcapRuns (captureAnswers s.cfg 3 x r ++ more) s) :
    Host.Core.run core 12 (atCapture 3 s) = .next (finishRequest (setXi 11 (atCapture 3 (captured 3 x r more s)))) := by
  have hn : (atCapture 3 s).nmsg.val ≤ (atCapture 3 s).mi.val + 1 := by
    show s.nmsg.val ≤ 4
    omega
  exact run_answered_last (s := atCapture 3 s) rfl h.peer h.quiet rfl rfl rfl hn

end

/-! ### The whole request -/

/-- What a peer well behaved for all four captures answers from capture `q` on, and then `more` (R57). -/
def answersFrom (c : Cfg) (x : Fin 4 → Word) (r : Fin 4 → Payload) (more : List LinkAnswer) (q : Nat) : List LinkAnswer :=
  (([0, 1, 2, 3] : List (Fin 4)).drop q).foldr (fun q l => captureAnswers c q (x q) (r q) ++ l) more

/-- `s` after all four captures. -/
def capturesTaken (x : Fin 4 → Word) (r : Fin 4 → Payload) (more : List LinkAnswer) (s : State) : State :=
  captured 3 (x 3) (r 3) more <| captured 2 (x 2) (r 2) (answersFrom s.cfg x r more 3) <|
    captured 1 (x 1) (r 1) (answersFrom s.cfg x r more 2) <| captured 0 (x 0) (r 0) (answersFrom s.cfg x r more 1) s

/-- The 48 exchanges of an `HPCAP` (R186). -/
theorem run_captures {x : Fin 4 → Word} {r : Fin 4 → Payload} {more : List LinkAnswer} {s : State}
    (h : HpcapRuns (answersFrom s.cfg x r more 0) s) : Host.Core.run core 48 (atCapture 0 s) =
      .next (finishRequest (setXi 11 (atCapture 3 (capturesTaken x r more s)))) := by
  have h1 := h.after_capture 0 (x 0) (r 0) (answersFrom s.cfg x r more 1)
  have h2 := h1.after_capture 1 (x 1) (r 1) (answersFrom s.cfg x r more 2)
  have h3 := h2.after_capture 2 (x 2) (r 2) (answersFrom s.cfg x r more 3)
  exact (run_add (run_capture_next h rfl) 36).trans <| (run_add (run_capture_next h1 rfl) 24).trans <|
    (run_add (run_capture_next h2 rfl) 12).trans (run_capture_last h3)

/-- Each capture is in the response of its message (R185). -/
theorem capturesTaken_resp (x : Fin 4 → Word) (r : Fin 4 → Payload) (more : List LinkAnswer) (s : State) (q : Fin 4) :
    (capturesTaken x r more s).resp[q] = goodResponse s.cfg .trg (s.cfg.op (hitClass q)) (r q) := by
  fin_cases q <;> simp [capturesTaken, captured, answered]

/-- The reversal of R187 on the list of the words. -/
theorem reorder_toList (raw : Vector Word 32) : (reorder raw).toList = raw.toList.reverse := by
  apply List.ext_getElem
  · simp
  · intro i _ _
    simp

/-- The eight data words of a well-behaved peer's response are the payload it answered (R57, R111). -/
theorem goodResponse_data (c : Cfg) (t : Controller) (cw : Word) (r : Payload) :
    (List.ofFn fun j : Fin 8 => (goodResponse c t cw r)[2 + j.val]) = r.toList := rfl

/-- The data words of the responses are those of one response after the other (R31, R185). -/
theorem respData_toList (resp : Vector (Vector Word 11) 4) : (respData resp).toList =
    (List.ofFn fun q : Fin 4 => List.ofFn fun j : Fin 8 => resp[q][2 + j.val]).flatten := by
  have hplace : ∀ (q : Fin 4) (j : Fin 8), (q.val * 8 + j.val) / 8 = q.val ∧ (q.val * 8 + j.val) % 8 = j.val := by omega
  rw [respData, Vector.toList_ofFn]
  refine (List.ofFn_mul (m := 4) (n := 8) _).trans ?_
  simp only [quadrantOf, dataPosOf, hplace, Fin.getElem_fin]

/-- The data words of four responses of a well-behaved peer, in order (R185). -/
theorem respData_goodResponses {resp : Vector (Vector Word 11) 4} {c : Cfg} {t : Controller} {cw : Fin 4 → Word}
    {r : Fin 4 → Payload} (h : ∀ q : Fin 4, resp[q] = goodResponse c t (cw q) (r q)) :
    (respData resp).toList = (r 0).toList ++ (r 1).toList ++ (r 2).toList ++ (r 3).toList := by
  rw [respData_toList]
  simp only [h, goodResponse_data]
  simp [List.ofFn_succ]

/-- An `HPCAP` presented to an idle engine runs its acceptance and its 48 exchanges (R185, R186). -/
theorem run_hpcap {s : State} {x : Fin 4 → Word} {r : Fin 4 → Payload} {more : List LinkAnswer} {rest : List (List Word)}
    (h : Inv s) (hquiet : RstQuiet s) (hp : s.ph = .idle) (hq : s.reqs = [0x0007] :: rest)
    (hpeer : s.peer = .oracle (answersFrom s.cfg x r more 0)) : Host.Core.run core 49 s =
      .next (finishRequest (setXi 11 (atCapture 3
        (capturesTaken x r more (hpcapStarted { s with reqs := rest, rst := s.rst.tail }))))) :=
  (run_succ (step_hpcap h.cfgWf (quiet_now hquiet) hp hq) 48).trans
    (run_captures (s := hpcapStarted { s with reqs := rest, rst := s.rst.tail })
      ⟨h.cfgWf, quiet_tick hquiet, rfl, rfl, hpeer⟩)

/-- Settles O38: after the acceptance each capture is carried back in twelve exchanges, the last of which end the request with
the data words of the four responses stored. -/
theorem hpcapStoresTheCapturesReversed : Obligations.HpcapStoresTheCapturesReversed := by
  intro s x0 x1 x2 x3 r0 r1 r2 r3 more rest h hquiet hp hq hpeer
  simp only [List.append_assoc] at hpeer
  have hrun := run_hpcap (x := ![x0, x1, x2, x3]) (r := ![r0, r1, r2, r3]) h hquiet hp hq hpeer
  rw [finishRequest_eq] at hrun
  have hdata := respData_goodResponses (capturesTaken_resp ![x0, x1, x2, x3] ![r0, r1, r2, r3] more
    (hpcapStarted { s with reqs := rest, rst := s.rst.tail }))
  exact ⟨_, hrun, rfl, completeStat_busy, rfl, (reorder_toList _).trans (congrArg List.reverse hdata), rfl, rfl, rfl, rfl⟩

end Sys2Proof.Machine
end

section
/-! SUPPORT. Time synchronisation (R201 to R205): the acceptances of its four requests, and the whole run of a `SYNCHS` against a
well-behaved peer. -/

namespace Sys2Proof.Machine

/-! ### The acceptances -/

/-- The acceptance of a link request that captures no hit pattern and whose first message is a trigger command without a
wait (R100, R102). -/
theorem acceptLink_trigger {s : State} (hw : s.cfg.wf = true) (hp : s.ph = .idle) {code : BitVec 4} (hc : isHpcap code = false)
    {ops : List Word} {k : CmdClass} (hk : k.controller = .trg) {d : Payload} {rest : List Msg} {n : Fin 5}
    (hm : msgsOf s.cfg code (latchArgs s.arg ops) s.mask = ⟨none, s.cfg.op k, d⟩ :: rest) (hn : rest.length + 1 = n.val) :
    acceptLink true code ops s =
      .next (linkStarted s code (latchArgs s.arg ops) n .trg (s.cfg.op k) d false) := by
  have hroute : routeOf s.cfg (s.cfg.op k) = some .trg := (routeOf_op hw k).trans (congrArg some hk)
  rw [acceptLink_linkStarted hp code ops hm hroute hn, hc]
  rfl

/-- In range the place of a TackState in `PACK_TACK` does not wrap (R76). -/
theorem packTack_eq (c : Cfg) {ty mo : Word} (hty : ty.toNat ≤ 3) (hmo : mo.toNat ≤ 3) :
    packTack c ty mo = c.packTack[4 * ty.toNat + mo.toNat] := by
  have hplace : (tackIndex ty mo).val = 4 * ty.toNat + mo.toNat := Nat.mod_eq_of_lt (by omega)
  simp only [packTack, Fin.getElem_fin, hplace]

/-- Settles O19. -/
theorem tacksetStartsTheMessage : Obligations.TacksetStartsTheMessage := by
  intro ty mo s hw hp hty hmo
  have hvalid : tacksetValid ty mo = true := by simp [tacksetValid, hty, hmo]
  show acceptLink (tacksetValid ty mo) 0x8#4 [ty, mo] s = _
  rw [hvalid, ← packTack_eq s.cfg hty hmo, ← latchArgs_two]
  exact acceptLink_trigger hw hp rfl (k := .trTack) rfl rfl rfl

/-- Settles O20. -/
theorem schedsetStartsTheMessage : Obligations.SchedsetStartsTheMessage := by
  intro t3 t2 t1 t0 s hw hp
  rw [← latchArgs_four]
  exact acceptLink_trigger hw hp rfl (k := .trSched) rfl rfl rfl

/-- Settles O21. -/
theorem cntrstStartsTheMessage : Obligations.CntrstStartsTheMessage := by
  intro s hw hp
  rw [← latchArgs_nil s.arg]
  exact acceptLink_trigger hw hp rfl (k := .trCntrst) rfl rfl rfl

/-! ### The four messages of a `SYNCHS` -/

/-- The class of the command word of message `m` of the handshake (R204). -/
def handshakeClass : Fin 4 → CmdClass
  | 0 => .trTack
  | 1 => .trSched
  | 2 => .trCntrst
  | 3 => .trTack

theorem handshakeClass_controller (m : Fin 4) : (handshakeClass m).controller = .trg := by revert m; decide

/-- The payload of message `m` of the handshake whose latched operands are `arg` (R204). -/
def handshakePayload (c : Cfg) (arg : Vector Word 9) : Fin 4 → Payload
  | 0 => tackPayload c 1 0
  | 1 => timePayload c arg[0] arg[1] arg[2] arg[3]
  | 2 => fillPayload c
  | 3 => tackPayload c 0 0

/-- Message `m` of the handshake: every one but the first comes after a wait (R204). -/
def handshakeMsg (c : Cfg) (arg : Vector Word 9) (m : Fin 4) : Msg :=
  ⟨if m = 0 then none else some c.tSync, c.op (handshakeClass m), handshakePayload c arg m⟩

theorem synchsMsgs_get (c : Cfg) (arg : Vector Word 9) (m : Fin 4) :
    (synchsMsgs c arg[0] arg[1] arg[2] arg[3])[m.val]? = some (handshakeMsg c arg m) := by
  fin_cases m <;> rfl

/-- Every message of the handshake routes to the trigger controller (R8 item 3). -/
theorem routeOf_handshakeMsg {c : Cfg} (h : c.wf = true) (arg : Vector Word 9) (m : Fin 4) :
    routeOf c (handshakeMsg c arg m).cw = some .trg :=
  (routeOf_op h (handshakeClass m)).trans (congrArg some (handshakeClass_controller m))

/-! ### The acceptance of a `SYNCHS` -/

/-- `s` right after the acceptance of a `SYNCHS`. -/
def synchsStarted (t3 t2 t1 t0 : Word) (s : State) : State :=
  linkStarted s 0xB (latchArgs s.arg [t3, t2, t1, t0]) 4 .trg (s.cfg.op .trTack) (tackPayload s.cfg 1 0) false

/-- The acceptance of `SYNCHS` (R100, R204). -/
theorem exec_synchs {s : State} (hw : s.cfg.wf = true) (hp : s.ph = .idle) (t3 t2 t1 t0 : Word) :
    exec (.synchs t3 t2 t1 t0) s = .next (synchsStarted t3 t2 t1 t0 s) :=
  acceptLink_trigger hw hp rfl (k := .trTack) rfl rfl rfl

/-- Settles O22. -/
theorem synchsStartsByArming : Obligations.SynchsStartsByArming := by
  intro t3 t2 t1 t0 s hw hp
  rw [← latchArgs_four]
  exact exec_synchs hw hp t3 t2 t1 t0

/-- The accept step of a `SYNCHS` presented to an idle engine (R100, R204). -/
theorem step_synchs {s : State} {t3 t2 t1 t0 : Word} {rest : List (List Word)} (hw : s.cfg.wf = true)
    (hr : resetAsserted s = false) (hp : s.ph = .idle) (hq : s.reqs = [0x000B, t3, t2, t1, t0] :: rest) :
    step s = .next (synchsStarted t3 t2 t1 t0 { s with reqs := rest, rst := s.rst.tail }) := by
  rw [step_of_decoded hr hp hq (i := .synchs t3 t2 t1 t0) rfl]
  exact exec_synchs (s := { s with reqs := rest, rst := s.rst.tail }) hw hp t3 t2 t1 t0

/-! ### One message of the handshake -/

/-- `s` before the first exchange of message `m` of the handshake. -/
def atHandshake (m : Fin 4) (s : State) : State := setPh .xchg (frameMessage .trg (handshakeMsg s.cfg s.arg m) (setMi m s))

/-- What a peer well behaved for the handshake answers from message `m` on, and then `more`: it carries each message back with
the words `x m` and `r m` (R57). -/
def handshakeAnswers (c : Cfg) (x : Fin 4 → Word) (r : Fin 4 → Payload) (more : List LinkAnswer) (m : Nat) :
    List LinkAnswer :=
  (([0, 1, 2, 3] : List (Fin 4)).drop m).foldr
    (fun m l => goodAnswers c .trg (c.op (handshakeClass m)) (x m) (r m) ++ l) more

theorem handshakeAnswers_cons (c : Cfg) (x : Fin 4 → Word) (r : Fin 4 → Payload) (more : List LinkAnswer) (m : Fin 4) :
    handshakeAnswers c x r more m.val =
      goodAnswers c .trg (c.op (handshakeClass m)) (x m) (r m) ++ handshakeAnswers c x r more (m.val + 1) := by
  fin_cases m <;> rfl

/-- What message `m` of the handshake leaves of `s`, but for the registers that hold the message in progress. -/
def handshakeSent (x : Fin 4 → Word) (r : Fin 4 → Payload) (more : List LinkAnswer) (m : Fin 4) (s : State) : State :=
  answered .trg m (s.cfg.op (handshakeClass m)) (handshakePayload s.cfg s.arg m) (x m) (r m)
    (handshakeAnswers s.cfg x r more (m.val + 1)) s

/-- What a wait of the handshake leaves of `s` (R62, R204). -/
def synchWaited (s : State) : State := recordSettle s.cfg.tSync (tickReset s)

/-- A `SYNCHS` runs without reset before a peer well behaved for the handshake from message `m` on. -/
structure SynchsRuns (x : Fin 4 → Word) (r : Fin 4 → Payload) (more : List LinkAnswer) (m : Nat) (s : State) : Prop where
  cfgWf : s.cfg.wf = true
  quiet : RstQuiet s
  opr : s.opr = 0xB#4
  nmsg : s.nmsg = 4
  peer : s.peer = .oracle (handshakeAnswers s.cfg x r more m)

section
variable {x : Fin 4 → Word} {r : Fin 4 → Payload} {more : List LinkAnswer} {m : Fin 4} {s : State}

theorem SynchsRuns.after_message {n : Nat} (h : SynchsRuns x r more n s) (m : Fin 4) :
    SynchsRuns x r more (m.val + 1) (handshakeSent x r more m s) :=
  ⟨h.cfgWf, quiet_of_drop h.quiet rfl, h.opr, h.nmsg, rfl⟩

theorem SynchsRuns.after_wait {n : Nat} (h : SynchsRuns x r more n s) : SynchsRuns x r more n (synchWaited s) :=
  ⟨h.cfgWf, quiet_of_tail h.quiet rfl, h.opr, h.nmsg, h.peer⟩

theorem SynchsRuns.msgs_get {n : Nat} (h : SynchsRuns x r more n s) (m : Fin 4) :
    (msgs s)[m.val]? = some (handshakeMsg s.cfg s.arg m) := by
  rw [msgs, h.opr]
  exact synchsMsgs_get s.cfg s.arg m

/-- The peer carries message `m` back. -/
theorem SynchsRuns.peer_at (h : SynchsRuns x r more m.val s) : (atHandshake m s).peer = .oracle
    (goodAnswers s.cfg .trg (handshakeMsg s.cfg s.arg m).cw (x m) (r m) ++ handshakeAnswers s.cfg x r more (m.val + 1)) :=
  h.peer.trans (congrArg Peer.oracle (handshakeAnswers_cons s.cfg x r more m))

/-- The settle wait before a message of the handshake (R108, R204). -/
theorem step_handshake_wait {n : Nat} (h : SynchsRuns x r more n s) (hm : m ≠ 0) :
    step (frameMessage .trg (handshakeMsg s.cfg s.arg m) (setMi m s)) = .next (atHandshake m (synchWaited s)) := by
  have hpre : (handshakeMsg s.cfg s.arg m).pre = some s.cfg.tSync := if_neg hm
  have hph : (frameMessage .trg (handshakeMsg s.cfg s.arg m) (setMi m s)).ph = .settle := by
    rw [frameMessage_ph, hpre]; rfl
  exact step_settled (quiet_now h.quiet) hph (h.msgs_get m) hpre

/-- Twelve exchanges of a message that another one follows, and the wait before that one (R107, R108, R204). -/
theorem run_handshake_next {m' : Fin 4} (h : SynchsRuns x r more m.val s) (hm : m'.val = m.val + 1) :
    Host.Core.run core 13 (atHandshake m s) = .next (atHandshake m' (synchWaited (handshakeSent x r more m s))) := by
  have hn : m'.val < (atHandshake m s).nmsg.val := by
    show m'.val < s.nmsg.val
    rw [h.nmsg]; exact m'.isLt
  have hm0 : m' ≠ 0 := fun h0 => by simp [h0] at hm
  have hsent : Host.Core.run core 12 (atHandshake m s) =
      .next (frameMessage .trg (handshakeMsg s.cfg s.arg m') (setMi m' (handshakeSent x r more m s))) :=
    run_answered_next (s := atHandshake m s) rfl h.peer_at h.quiet rfl rfl rfl hm hn (h.msgs_get m')
      (routeOf_handshakeMsg h.cfgWf s.arg m')
  exact (run_add hsent 1).trans (run_one (step_handshake_wait (h.after_message m) hm0))

/-- Twelve exchanges of the last message end the request (R107). -/
theorem run_handshake_last (h : SynchsRuns x r more 3 s) : Host.Core.run core 12 (atHandshake 3 s) =
    .next (finishRequest (setXi 11 (atHandshake 3 (handshakeSent x r more 3 s)))) := by
  have hn : (atHandshake 3 s).nmsg.val ≤ (atHandshake 3 s).mi.val + 1 := by
    show s.nmsg.val ≤ 4
    omega
  exact run_answered_last (s := atHandshake 3 s) rfl (h.peer_at (m := 3)) h.quiet rfl rfl rfl hn

end

/-! ### The whole request -/

section
variable {x : Fin 4 → Word} {r : Fin 4 → Payload} {more : List LinkAnswer} {s : State}

/-- `s` after the whole handshake. -/
def handshakeDone (x : Fin 4 → Word) (r : Fin 4 → Payload) (more : List LinkAnswer) (s : State) : State :=
  handshakeSent x r more 3 <| synchWaited <| handshakeSent x r more 2 <| synchWaited <|
    handshakeSent x r more 1 <| synchWaited <| handshakeSent x r more 0 s

/-- The 48 exchanges and 3 waits of a `SYNCHS` (R204, R205). -/
theorem run_handshake (h : SynchsRuns x r more 0 s) : Host.Core.run core 51 (atHandshake 0 s) =
    .next (finishRequest (setXi 11 (atHandshake 3 (handshakeDone x r more s)))) := by
  have h1 := (h.after_message 0).after_wait
  have h2 := (h1.after_message 1).after_wait
  have h3 := (h2.after_message 2).after_wait
  exact (run_add (run_handshake_next (m := 0) (m' := 1) h rfl) 38).trans <|
    (run_add (run_handshake_next (m := 1) (m' := 2) h1 rfl) 25).trans <|
    (run_add (run_handshake_next (m := 2) (m' := 3) h2 rfl) 12).trans (run_handshake_last h3)

@[simp] theorem handshakeSent_cfg (m : Fin 4) : (handshakeSent x r more m s).cfg = s.cfg := rfl
@[simp] theorem handshakeSent_arg (m : Fin 4) : (handshakeSent x r more m s).arg = s.arg := rfl
@[simp] theorem handshakeSent_hist (m : Fin 4) : (handshakeSent x r more m s).hist = s.hist ++
    goodEvents s.cfg .trg (s.cfg.op (handshakeClass m)) (handshakePayload s.cfg s.arg m) (x m) (r m) := rfl

@[simp] theorem synchWaited_cfg : (synchWaited s).cfg = s.cfg := rfl
@[simp] theorem synchWaited_arg : (synchWaited s).arg = s.arg := rfl
@[simp] theorem synchWaited_hist : (synchWaited s).hist = s.hist ++ [.settle s.cfg.tSync] := rfl

/-- The events of the handshake, in order (R204, R205). -/
theorem handshakeDone_hist : (handshakeDone x r more s).hist = s.hist ++
    goodEvents s.cfg .trg (s.cfg.op .trTack) (tackPayload s.cfg 1 0) (x 0) (r 0) ++ [.settle s.cfg.tSync] ++
    goodEvents s.cfg .trg (s.cfg.op .trSched) (handshakePayload s.cfg s.arg 1) (x 1) (r 1) ++ [.settle s.cfg.tSync] ++
    goodEvents s.cfg .trg (s.cfg.op .trCntrst) (fillPayload s.cfg) (x 2) (r 2) ++ [.settle s.cfg.tSync] ++
    goodEvents s.cfg .trg (s.cfg.op .trTack) (tackPayload s.cfg 0 0) (x 3) (r 3) := by
  simp only [handshakeDone, handshakeSent_hist, synchWaited_hist, handshakeSent_cfg, handshakeSent_arg, synchWaited_cfg,
    synchWaited_arg]
  rfl

/-- A `SYNCHS` presented to an idle engine runs its acceptance, its 48 exchanges and its 3 waits (R204, R205). -/
theorem run_synchs {t3 t2 t1 t0 : Word} {rest : List (List Word)} (h : Inv s) (hquiet : RstQuiet s) (hp : s.ph = .idle)
    (hq : s.reqs = [0x000B, t3, t2, t1, t0] :: rest) (hpeer : s.peer = .oracle (handshakeAnswers s.cfg x r more 0)) :
    Host.Core.run core 52 s = .next (finishRequest (setXi 11 (atHandshake 3
      (handshakeDone x r more (synchsStarted t3 t2 t1 t0 { s with reqs := rest, rst := s.rst.tail }))))) :=
  (run_succ (step_synchs h.cfgWf (quiet_now hquiet) hp hq) 51).trans
    (run_handshake (s := synchsStarted t3 t2 t1 t0 { s with reqs := rest, rst := s.rst.tail })
      ⟨h.cfgWf, quiet_tick hquiet, rfl, rfl, hpeer⟩)

end

/-- Settles O40: after the acceptance each message is carried back in twelve exchanges, and each of the first three is followed
by a wait. -/
theorem synchsSendsTheHandshake : Obligations.SynchsSendsTheHandshake := by
  intro s t3 t2 t1 t0 x0 x1 x2 x3 r0 r1 r2 r3 more rest h hquiet hp hq hpeer
  simp only [List.append_assoc] at hpeer
  have hrun := run_synchs (x := ![x0, x1, x2, x3]) (r := ![r0, r1, r2, r3]) h hquiet hp hq hpeer
  rw [finishRequest_eq] at hrun
  have hhist := handshakeDone_hist (x := ![x0, x1, x2, x3]) (r := ![r0, r1, r2, r3]) (more := more)
    (s := synchsStarted t3 t2 t1 t0 { s with reqs := rest, rst := s.rst.tail })
  refine ⟨_, hrun, rfl, completeStat_busy, rfl, hhist.trans ?_⟩
  have hfirst : tackPayload s.cfg 1 0 = { fillPayload s.cfg with d1 := s.cfg.packTack[4] } := rfl
  have hlast : tackPayload s.cfg 0 0 = { fillPayload s.cfg with d1 := s.cfg.packTack[0] } := rfl
  have htime : handshakePayload s.cfg (latchArgs s.arg [t3, t2, t1, t0]) 1 =
      { fillPayload s.cfg with d1 := t3, d2 := t2, d3 := t1, d4 := t0 } := rfl
  rw [← hfirst, ← hlast, ← htime]
  rfl

end Sys2Proof.Machine
end

section
/-! SUPPORT. The three errors (R221 to R223): what raises each and what it records (R226), and the obligations about them. -/

namespace Sys2Proof.Machine

/-! ### `LinkFailure` -/

/-- A step on an exchange the peer fails, written out (R221, R226). -/
theorem step_failed {s : State} (hr : resetAsserted s = false) (hp : s.ph = .xchg)
    (ha : peerReply s (outWord s) = .fail) :
    step s = .next { s with
      rst := s.rst.tail, hist := s.hist ++ [.xchgFail (outWord s)], peer := peerAfter s.peer (outWord s)
      xcount := s.xcount + 1, stat := errorStat .linkFailure s.mi s.xi s.stat, ph := .idle, mi := 0, xi := 0 } :=
  (step_of_exchange hr hp).trans (exchangeStep_fail (s := tickReset s) ha)

/-- Settles O30: error entry records the message and the exchange that failed in the `STAT` of a running request. -/
theorem linkFailureEndsTheRequest : Obligations.LinkFailureEndsTheRequest :=
  fun _ h hr hp ha => ⟨_, step_failed hr hp ha, errorStat_link (h.runs_in_xchg hp).stat _ _⟩

/-! ### `FramingMismatch` -/

/-- A step on the last exchange of a running message with a wrong marker, written out (R222, R226). -/
theorem step_mismatched {s : State} {t : Controller} {r : Word} (h : Running s) (hr : resetAsserted s = false)
    (hp : s.ph = .xchg) (hx : s.xi = 11) (ht : s.tgt = some t) (ha : peerReply s s.cfg.nullWord = .ok r)
    (hbad : s.resp[s.mi][0] ≠ s.cfg.som t ∨ r ≠ s.cfg.eom t) :
    step s = .next { s with
      rst := s.rst.tail, hist := s.hist ++ [.xchg s.cfg.nullWord r], peer := peerAfter s.peer s.cfg.nullWord
      xcount := s.xcount + 1, resp := s.resp.set s.mi (s.resp[s.mi].set 10 r), respv := s.respv.set s.mi true
      stat := errorStat (.framingMismatch (s.resp[s.mi][0] != s.cfg.som t) (r != s.cfg.eom t)) s.mi s.xi
        (if s.resp[s.mi][1] ≠ s.tx[1] then 0x0021#16 else s.stat)
      ph := .idle, mi := 0, xi := 0 } := by
  have hwrong : (s.resp[s.mi][0] != s.cfg.som t || r != s.cfg.eom t) = true := by simpa using hbad
  rw [step_last hr hp hx ht ha, if_pos hwrong, echoCheck_received_last h hx]
  rfl

/-- The command-echo check leaves the `STAT` of a running request (R106). -/
theorem checkedStat_running {w : Word} (h : w = 0x0001#16 ∨ w = 0x0021#16) (wrong : Prop) [Decidable wrong] :
    (if wrong then 0x0021#16 else w) = 0x0001#16 ∨ (if wrong then 0x0021#16 else w) = 0x0021#16 := by
  split
  · exact .inr rfl
  · exact h

/-- `ECHO` gathers the wrong echoes of a request (R106, R225). -/
theorem statEcho_checked (w : Word) (wrong : Prop) [Decidable wrong] :
    statEcho (if wrong then 0x0021#16 else w) = true ↔ statEcho w = true ∨ wrong := by
  have hset : statEcho 0x0021#16 = true := by decide
  by_cases hw : wrong
  · simp only [hw, if_true, hset, or_true]
  · simp only [hw, if_false, or_false]

/-- Settles O31: `SBAD` and `EBAD` are the two marker comparisons, and `ECHO` is what the command-echo check left. -/
theorem framingMismatchEndsTheRequest : Obligations.FramingMismatchEndsTheRequest := by
  intro s t r h hr hp hx ht ha hbad
  have hrun := h.runs_in_xchg hp
  obtain ⟨herr, hemsg, hepos, hsbad, hebad, hbusy, hdone, hecho, hzero⟩ :=
    errorStat_framing (checkedStat_running hrun.stat (s.resp[s.mi][1] ≠ s.tx[1]))
      (s.resp[s.mi][0] != s.cfg.som t) (r != s.cfg.eom t) s.mi s.xi
  refine ⟨_, step_mismatched hrun hr hp hx ht ha hbad, herr, hemsg, hepos, ?_, ?_, hbusy, hdone, hzero, ?_⟩
  · rw [hsbad, bne_iff_ne]
  · rw [hebad, bne_iff_ne]
  · rw [hecho, statEcho_checked]

/-! ### `InvalidParameter` -/

/-- A request found not valid changes `STAT` alone, whatever its acceptance would do (R100, R223). -/
theorem accept_refused {s : State} {valid : Bool} (hp : s.ph = .idle) (hv : valid = false) (run : State → Result) :
    accept valid run s = .next { s with stat := 0x000E } := by
  rw [hv]
  exact accept_invalid hp run

theorem xferValid_eq_false {c : Cfg} {cw : Word} (h : routeOf c cw = none) : xferValid c cw = false := by
  rw [xferValid, h]
  rfl

theorem tmsglValid_eq_false {slot asic group : Word} (h : 31 < slot.toNat ∨ 3 < asic.toNat ∨ 3 < group.toNat) :
    tmsglValid slot asic group = false := by
  simpa only [tmsglValid, Bool.and_eq_false_iff, decide_eq_false_iff_not, Nat.not_le, or_assoc] using h

theorem tacksetValid_eq_false {ty mo : Word} (h : 3 < ty.toNat ∨ 3 < mo.toNat) : tacksetValid ty mo = false := by
  simpa only [tacksetValid, Bool.and_eq_false_iff, decide_eq_false_iff_not, Nat.not_le] using h

theorem statErr_running {w : Word} (h : w = 0x0001#16 ∨ w = 0x0021#16) : statErr w = 0#3 := by
  rcases h with rfl | rfl <;> decide

theorem statErr_completeStat {w : Word} (h : w = 0x0001#16 ∨ w = 0x0021#16) : statErr (completeStat w) = 0#3 := by
  rw [completeStat_running h]
  split <;> decide

/-- A step of a running request leaves no error, `LinkFailure` or `FramingMismatch` in `STAT` (R221, R222). -/
theorem step_running_statErr {s t : State} (h : Running s) (hr : resetAsserted s = false) (hp : s.ph ≠ .idle)
    (hs : step s = .next t) : statErr t.stat = 0#3 ∨ statErr t.stat = 1#3 ∨ statErr t.stat = 2#3 := by
  have hchecked (w r : Word) : (echoCheck (received w r (tickReset s))).stat = 0x0001#16 ∨
      (echoCheck (received w r (tickReset s))).stat = 0x0021#16 :=
    echoCheck_running (by simpa using h.stat)
  cases step_cases hs with
  | reset hreset => rw [hr] at hreset; cases hreset
  | waited _ hidle | reserved _ hidle | accepted _ hidle => exact absurd hidle hp
  | settled => exact .inl (statErr_running h.stat)
  | failed =>
    obtain ⟨herr, -⟩ := errorStat_link h.stat s.mi s.xi
    exact .inr (.inl herr)
  | stored => exact .inl (statErr_running (by simpa using h.stat))
  | mismatched _ _ _ w r sbad ebad =>
    rw [raiseError_stat]
    obtain ⟨herr, -⟩ := errorStat_framing (hchecked w r) sbad ebad _ _
    exact .inr (.inr herr)
  | continued _ _ _ w r =>
    rw [frameMessage_stat, setMi_stat]
    exact .inl (statErr_running (hchecked w r))
  | finished _ _ _ w r =>
    rw [finishRequest_stat]
    exact .inl (statErr_completeStat (hchecked w r))

/-- Settles O23: every cause is found at the acceptance, and the steps of a running request raise other errors only. -/
theorem invalidParameterLeavesNoTrace : Obligations.InvalidParameterLeavesNoTrace := by
  refine ⟨reservedDescriptorRefused, fun cw d s hp hroute => ?_, fun slot asic group s hp hrange => ?_,
    fun ty mo s hp hrange => ?_, fun s t h hr hp hs => ?_⟩
  · rw [exec, execXfer, acceptXfer, acceptLink, accept_refused hp (xferValid_eq_false hroute)]
  · rw [exec, execTmsgl, acceptPure, accept_refused hp (tmsglValid_eq_false hrange)]
  · rw [exec, execTackset, acceptLink, accept_refused hp (tacksetValid_eq_false hrange)]
  · rcases step_running_statErr (h.running hp) hr hp hs with herr | herr | herr <;> rw [herr] <;> decide

end Sys2Proof.Machine
end

section
/-! SUPPORT. Reset, and what no step changes (R250, R252, R257); which steps are enabled (R268); and the obligations about
them. -/

namespace Sys2Proof.Machine

/-! ### Reset -/

/-- Settles O34: the step is `resetBlock`, which starts from the reset state and takes over what lies outside the block. -/
theorem resetPutsEveryRegisterBack : Obligations.ResetPutsEveryRegisterBack :=
  fun s hr => ⟨resetBlock (tickReset s), step_of_reset hr, rfl, rfl, rfl, rfl, rfl, rfl, rfl, rfl, rfl, rfl, rfl, rfl, rfl, rfl,
    rfl, rfl⟩

/-! ### What no step changes -/

theorem exec_keeps_cfg {i : Instr} {s t : State} (h : exec i s = .next t) : t.cfg = s.cfg := by
  cases exec_accepted h <;> rfl

theorem exec_keeps_rst {i : Instr} {s t : State} (h : exec i s = .next t) : t.rst = s.rst := by
  cases exec_accepted h <;> rfl

theorem step_keeps_cfg {s t : State} (h : step s = .next t) : t.cfg = s.cfg := by
  cases step_cases h with
  | accepted _ _ _ _ _ _ _ _ he => simpa using exec_keeps_cfg he
  | _ => simp

/-- Every step, reset or not, moves the port `RST` on by one (log 7). -/
theorem step_ticks_rst {s t : State} (h : step s = .next t) : t.rst = s.rst.tail := by
  cases step_cases h with
  | accepted _ _ _ _ _ _ _ _ he => simpa using exec_keeps_rst he
  | _ => simp

theorem step_keeps_quiet {s t : State} (hq : RstQuiet s) (h : step s = .next t) : RstQuiet t :=
  quiet_of_tail hq (step_ticks_rst h)

/-- Settles O45. -/
theorem configurationNeverChanges : Obligations.ConfigurationNeverChanges :=
  fun _ _ => step_keeps_cfg

/-! ### Requests held by a running engine -/

/-- A running engine holds every request, pure or link (R257). -/
theorem exec_held (i : Instr) {s : State} (hp : s.ph ≠ .idle) : exec i s = .next s := by
  cases i with
  | dec | tmdef | tmsgl | tmblk => rw [exec]; exact acceptPure_held hp _ _ _ _
  | _ => exact acceptLink_held hp _ _ _

/-- A step of a running engine leaves the port `REQ`, the latched request and the mask alone (R63, R101, R257). -/
theorem step_running_keeps_request {s t : State} (hr : resetAsserted s = false) (hp : s.ph ≠ .idle)
    (h : step s = .next t) : t.reqs = s.reqs ∧ t.opr = s.opr ∧ t.arg = s.arg ∧ t.mask = s.mask := by
  cases step_cases h with
  | reset ha => rw [hr] at ha; cases ha
  | waited _ hidle | reserved _ hidle | accepted _ hidle => exact absurd hidle hp
  | _ => simp

theorem step_running_keeps_msgs {s t : State} (hr : resetAsserted s = false) (hp : s.ph ≠ .idle)
    (h : step s = .next t) : msgs t = msgs s := by
  obtain ⟨-, hopr, harg, hmask⟩ := step_running_keeps_request hr hp h
  exact msgs_congr (step_keeps_cfg h) hopr harg hmask

/-- Settles O24. -/
theorem requestsAreHeldWhileRunning : Obligations.RequestsAreHeldWhileRunning := by
  refine ⟨fun i s hp => exec_held i hp, fun s t hr hp h => ?_⟩
  obtain ⟨hreqs, hopr, harg, hmask⟩ := step_running_keeps_request hr hp h
  exact ⟨hreqs, hopr, harg, hmask, step_running_keeps_msgs hr hp h⟩

/-! ### Every acceptance answers -/

theorem accept_answers {s : State} {valid : Bool} {run : State → Result}
    (hrun : s.ph = .idle → valid = true → ∃ t, run s = .next t) : ∃ t, accept valid run s = .next t := by
  by_cases hp : s.ph = .idle
  · cases valid with
    | false => exact ⟨_, accept_invalid hp run⟩
    | true => rw [accept_valid hp]; exact hrun hp rfl
  · exact ⟨s, accept_held hp valid run⟩

theorem acceptPure_answers (valid : Bool) (code : BitVec 4) (ops : List Word) (e : State → State) (s : State) :
    ∃ t, acceptPure valid code ops e s = .next t :=
  accept_answers fun _ _ => ⟨_, rfl⟩

/-- A link request answers when, if it is valid, its first message routes (R100, R102). -/
theorem acceptLink_answers {s : State} {valid : Bool} {code : BitVec 4} {ops : List Word}
    (hfirst : valid = true → ∃ msg, (msgsOf s.cfg code (latchArgs s.arg ops) s.mask)[0]? = some msg ∧
      (routeOf s.cfg msg.cw).isSome = true) : ∃ t, acceptLink valid code ops s = .next t := by
  refine accept_answers fun _ hv => ?_
  obtain ⟨msg, hmsg, hroute⟩ := hfirst hv
  obtain ⟨u, hu⟩ := Option.isSome_iff_exists.mp hroute
  exact ⟨_, startMessage_eq (s := beginLink code ops s) hmsg hu⟩

/-- `XFER` is valid exactly when its message routes, so it answers under every configuration (R90, R109). -/
theorem acceptXfer_answers (cw : Word) (d : Payload) (s : State) : ∃ t, acceptXfer cw d s = .next t :=
  acceptLink_answers fun hv => ⟨⟨analogWait s.cfg cw, cw, d⟩, by rw [latchArgs_xfer]; rfl, hv⟩

/-- Every instruction answers a next state under a well-formed configuration (R228, R8 item 3). -/
theorem exec_answers {s : State} (hw : s.cfg.wf = true) (i : Instr) : ∃ t, exec i s = .next t := by
  cases i with
  | dec | tmdef | tmsgl | tmblk => rw [exec]; exact acceptPure_answers _ _ _ _ _
  | tmsend | hpcap | tackset | schedset | cntrst | synchs =>
    exact acceptLink_answers fun _ => ⟨_, rfl, routes_isSome hw _⟩
  | _ => exact acceptXfer_answers _ _ _

/-! ### Every phase has an enabled step -/

/-- An idle engine accepts whatever is presented, but Words that are no descriptor (log 6). -/
theorem step_idle_enabled {s : State} (hw : s.cfg.wf = true) (hr : resetAsserted s = false) (hp : s.ph = .idle)
    (hd : ∀ q rest, s.reqs = q :: rest → decode s.cfg q ≠ .error .badLength ∧ decode s.cfg q ≠ .error .empty) :
    ∃ t, step s = .next t := by
  cases hq : s.reqs with
  | nil => exact ⟨_, step_of_waiting hr hp hq⟩
  | cons q rest =>
    obtain ⟨hlength, hempty⟩ := hd q rest hq
    cases hdec : decode s.cfg q with
    | ok i =>
      rw [step_of_decoded hr hp hq hdec]
      exact exec_answers (s := { s with reqs := rest, rst := s.rst.tail }) hw i
    | error e =>
      cases e with
      | reservedCode => exact ⟨_, (step_of_presented hr hp hq).trans (acceptDescriptor_reserved (s := tickReset s) hdec)⟩
      | badLength => exact absurd hdec hlength
      | empty => exact absurd hdec hempty

/-- A running engine always has an enabled step (R268). -/
theorem step_running_enabled {s : State} (h : Inv s) (hr : resetAsserted s = false) (hp : s.ph ≠ .idle) :
    ∃ t, step s = .next t := by
  cases hph : s.ph with
  | idle => exact absurd hph hp
  | settle =>
    obtain ⟨_, _, _, _, hs⟩ := settleStepWaits s h hr hph
    exact ⟨_, hs⟩
  | xchg => exact step_xchg_enabled (h.runs_in_xchg hph) hr hph

/-- Settles O44, by reset and the phase. -/
theorem invariantStatesNeverStop : Obligations.InvariantStatesNeverStop := by
  intro s h hd
  cases hr : resetAsserted s with
  | true => exact ⟨_, step_of_reset hr⟩
  | false =>
    by_cases hp : s.ph = .idle
    · exact step_idle_enabled h.cfgWf hr hp (hd hr hp)
    · exact step_running_enabled h hr hp

end Sys2Proof.Machine
end

section
/-! SUPPORT. Every request ends (R268): a running engine has so many exchanges and settle waits left, each step uses up one of
them, and the message lists bound both. -/

namespace Sys2Proof.Machine

/-! ### What a request has left -/

/-- How many messages of a list are sent after a settle wait. -/
def waitCount (l : List Msg) : Nat := l.countP fun m => m.pre.isSome

/-- How many settle waits come after the current message. -/
def waitsAhead (s : State) : Nat := waitCount ((msgs s).drop (s.mi.val + 1))

/-- How many settle waits a request has left at most. -/
def waitsLeft (s : State) : Nat :=
  match s.ph with
  | .idle => 0
  | .settle => waitsAhead s + 1
  | .xchg => waitsAhead s

/-- How many exchanges a request has left at most: twelve for each message, without those of the current one (R103). -/
def exchangesLeft (s : State) : Nat :=
  match s.ph with
  | .idle => 0
  | .settle | .xchg => 12 * (s.nmsg.val - s.mi.val) - s.xi.val

theorem left_idle {s : State} (hp : s.ph = .idle) : exchangesLeft s = 0 ∧ waitsLeft s = 0 := by
  simp [exchangesLeft, waitsLeft, hp]

theorem exchangesLeft_running {s : State} (hp : s.ph ≠ .idle) :
    exchangesLeft s = 12 * (s.nmsg.val - s.mi.val) - s.xi.val := by
  cases hph : s.ph with
  | idle => exact absurd hph hp
  | settle | xchg => simp only [exchangesLeft, hph]

theorem waitsLeft_settle {s : State} (hp : s.ph = .settle) : waitsLeft s = waitsAhead s + 1 := by
  simp only [waitsLeft, hp]

theorem waitsLeft_xchg {s : State} (hp : s.ph = .xchg) : waitsLeft s = waitsAhead s := by
  simp only [waitsLeft, hp]

theorem waitsAhead_congr {s t : State} (hmsgs : msgs t = msgs s) (hm : t.mi = s.mi) : waitsAhead t = waitsAhead s := by
  simp only [waitsAhead, hmsgs, hm]

/-- The waits from a message on are its own, if it has one, and those after it. -/
theorem waitCount_drop {l : List Msg} {n : Nat} {msg : Msg} (h : l[n]? = some msg) :
    waitCount (l.drop n) = waitCount (l.drop (n + 1)) + if msg.pre.isSome then 1 else 0 := by
  obtain ⟨hlt, rfl⟩ := List.getElem?_eq_some_iff.mp h
  rw [List.drop_eq_getElem_cons hlt, waitCount, List.countP_cons]
  rfl

theorem waitCount_drop_le (l : List Msg) (n : Nat) : waitCount (l.drop n) ≤ waitCount l :=
  (List.drop_sublist n l).countP_le

/-- A message just framed has left its own wait, if it has one, and those after it. -/
theorem waitsLeft_frameMessage {s : State} {msg : Msg} {u : Controller} (hm : (msgs s)[s.mi.val]? = some msg) :
    waitsLeft (frameMessage u msg s) = waitCount ((msgs s).drop s.mi.val) := by
  have hahead : waitsAhead (frameMessage u msg s) = waitCount ((msgs s).drop (s.mi.val + 1)) := rfl
  rw [waitCount_drop hm, ← hahead]
  by_cases hpre : msg.pre.isSome = true
  · rw [waitsLeft_settle (by simp [hpre]), if_pos hpre]
  · rw [waitsLeft_xchg (by simp [hpre]), if_neg hpre]; rfl

/-- A running request has no more waits left than its message list has. -/
theorem waitsLeft_le {s : State} (h : Running s) : waitsLeft s ≤ waitCount (msgs s) := by
  cases hp : s.ph with
  | idle => rw [(left_idle hp).2]; exact Nat.zero_le _
  | xchg => rw [waitsLeft_xchg hp]; exact waitCount_drop_le _ _
  | settle =>
    obtain ⟨-, hsome⟩ := h.settle hp
    obtain ⟨d, hbind⟩ := Option.isSome_iff_exists.mp hsome
    obtain ⟨msg, hm, hd⟩ := Option.bind_eq_some_iff.mp hbind
    have hdrop := waitCount_drop hm
    rw [if_pos (by rw [hd]; rfl)] at hdrop
    rw [waitsLeft_settle hp, waitsAhead, ← hdrop]
    exact waitCount_drop_le _ _

/-! ### One step of a running request -/

/-- From `s` to `t` a request used up `e` exchanges and `w` waits of those it had left, and if it ended, `DONE` tells so. -/
structure Advanced (e w : Nat) (s t : State) : Prop where
  count : t.xcount = s.xcount + e
  exchanges : exchangesLeft t + e ≤ exchangesLeft s
  waits : waitsLeft t + w ≤ waitsLeft s
  ended : t.ph = .idle → statDone t.stat = true

/-- Where `s` runs and `t` is idle, one exchange has been used up. -/
theorem advanced_of_ended {s t : State} (h : Running s) (hp : s.ph ≠ .idle) (hcount : t.xcount = s.xcount + 1)
    (hidle : t.ph = .idle) (hdone : statDone t.stat = true) : Advanced 1 0 s t where
  count := hcount
  exchanges := by
    rw [(left_idle hidle).1, exchangesLeft_running hp]
    have := h.current
    have := s.xi.isLt
    omega
  waits := by rw [(left_idle hidle).2]; exact Nat.zero_le _
  ended := fun _ => hdone

/-- An exchange that another one of its message follows (R105). -/
theorem advanced_stored {s : State} (h : Running s) (hp : s.ph = .xchg) (w r : Word) (hx : s.xi.val < 11) :
    Advanced 1 0 s (setXi ⟨s.xi.val + 1, by omega⟩ (exchanged w r (tickReset s))) where
  count := by simp
  exchanges := by
    rw [exchangesLeft_running (by simp [hp]), exchangesLeft_running (by simp [hp])]
    have := h.current
    simp only [setXi_nmsg, setXi_mi, setXi_xi, exchanged_nmsg, exchanged_mi, tickReset_nmsg, tickReset_mi]
    omega
  waits := by
    rw [waitsLeft_xchg (by simp [hp]), waitsLeft_xchg hp]
    exact (waitsAhead_congr (by apply msgs_congr <;> simp) (by simp)).le
  ended := fun hidle => by simp [hp] at hidle

/-- The last exchange of a message that another one follows (R107). -/
theorem advanced_continued {s : State} (hp : s.ph = .xchg) (hx : s.xi = 11) (w r : Word) {msg : Msg} {u : Controller}
    {m : Fin 4} (he : m.val = s.mi.val + 1) (hn : m.val < s.nmsg.val) (hm : (msgs s)[m.val]? = some msg) :
    Advanced 1 0 s (frameMessage u msg (setMi m (echoCheck (received w r (tickReset s))))) := by
  have hmsgs : msgs (setMi m (echoCheck (received w r (tickReset s)))) = msgs s := by apply msgs_congr <;> simp
  refine ⟨by simp, ?_, ?_, fun hidle => absurd hidle (frameMessage_ph_ne_idle _ _ _)⟩
  · rw [exchangesLeft_running (frameMessage_ph_ne_idle _ _ _), exchangesLeft_running (by simp [hp]), hx]
    simp only [frameMessage_nmsg, frameMessage_mi, frameMessage_xi, setMi_nmsg, setMi_mi, echoCheck_nmsg, received_nmsg,
      tickReset_nmsg, he]
    show 12 * (s.nmsg.val - (s.mi.val + 1)) - 0 + 1 ≤ 12 * (s.nmsg.val - s.mi.val) - 11
    omega
  · rw [waitsLeft_frameMessage (by rw [hmsgs]; exact hm), waitsLeft_xchg hp, hmsgs, setMi_mi, he]
    exact Nat.le_refl _

/-- A settle wait (R108). -/
theorem advanced_settled {s : State} (hp : s.ph = .settle) (d : Nat) :
    Advanced 0 1 s (setPh .xchg (recordSettle d (tickReset s))) where
  count := rfl
  exchanges := by rw [exchangesLeft_running (by simp), exchangesLeft_running (by simp [hp])]; exact Nat.le_refl _
  waits := by rw [waitsLeft_xchg rfl, waitsLeft_settle hp]; exact Nat.le_refl _
  ended := fun hidle => by cases hidle

/-- Each step of a running request uses up one exchange or one wait (R268). -/
theorem step_running_advances {s t : State} (h : Running s) (hr : resetAsserted s = false) (hp : s.ph ≠ .idle)
    (hs : step s = .next t) : ∃ e w, e + w = 1 ∧ Advanced e w s t := by
  have hchecked (w r : Word) := echoCheck_running (s := received w r (tickReset s)) (by simpa using h.stat)
  cases step_cases hs with
  | reset hreset => rw [hr] at hreset; cases hreset
  | waited _ hidle | reserved _ hidle | accepted _ hidle => exact absurd hidle hp
  | settled _ hsettle d => exact ⟨0, 1, rfl, advanced_settled hsettle d⟩
  | failed =>
    obtain ⟨-, -, -, -, hdone, -⟩ := errorStat_link h.stat s.mi s.xi
    exact ⟨1, 0, rfl, advanced_of_ended h hp (by simp) rfl hdone⟩
  | stored _ hx w r hlt => exact ⟨1, 0, rfl, advanced_stored h hx w r hlt⟩
  | mismatched _ _ _ w r sbad ebad =>
    obtain ⟨-, -, -, -, -, -, hdone, -⟩ := errorStat_framing (hchecked w r) sbad ebad _ _
    exact ⟨1, 0, rfl, advanced_of_ended h hp (by simp) rfl (by rw [raiseError_stat]; exact hdone)⟩
  | continued _ hx hlast w r msg u m he hn hm => exact ⟨1, 0, rfl, advanced_continued hx hlast w r he hn hm⟩
  | finished _ _ _ w r =>
    obtain ⟨-, -, hdone, -⟩ := completeStat_fields (hchecked w r)
    exact ⟨1, 0, rfl, advanced_of_ended h hp (by simp) (finishRequest_ph _) (by rw [finishRequest_stat]; exact hdone)⟩

/-! ### The run to the end -/

/-- From an invariant state a run without reset reaches an idle engine within the exchanges and waits left (R268), by induction
on how many are left. -/
theorem run_to_idle {s : State} (h : Inv s) (hq : RstQuiet s) (hended : s.ph = .idle → statDone s.stat = true) :
    ∃ (e w : Nat) (t : State), Host.Core.run core (e + w) s = .next t ∧ t.ph = .idle ∧ statDone t.stat = true ∧
      t.xcount = s.xcount + e ∧ e ≤ exchangesLeft s ∧ w ≤ waitsLeft s := by
  induction hn : exchangesLeft s + waitsLeft s using Nat.strong_induction_on generalizing s with
  | h n ih =>
    by_cases hp : s.ph = .idle
    · exact ⟨0, 0, s, rfl, hp, hended hp, rfl, Nat.zero_le _, Nat.zero_le _⟩
    · obtain ⟨u, hu⟩ := step_running_enabled h (quiet_now hq) hp
      obtain ⟨e, w, hone, hadv⟩ := step_running_advances (h.running hp) (quiet_now hq) hp hu
      have hexch := hadv.exchanges
      have hwaits := hadv.waits
      obtain ⟨e', w', t, hrun, hidle, hdone, hcount, he, hw⟩ :=
        ih _ (by omega) (step_keeps_inv h hu) (step_keeps_quiet hq hu) hadv.ended rfl
      refine ⟨e' + e, w' + w, t, ?_, hidle, hdone, ?_, by omega, by omega⟩
      · rw [show e' + e + (w' + w) = e' + w' + 1 by omega, run_succ hu, hrun]
      · rw [hcount, hadv.count]; omega

/-! ### The bounds of each request -/

/-- No message list has more than three waits (R101). -/
theorem waitCount_msgs_le (s : State) : waitCount (msgs s) ≤ 3 := by
  unfold msgs msgsOf
  split
  · exact List.countP_le_length.trans (by simp [xferMsgs])
  all_goals simp [waitCount, tmsendMsgs, hpcapMsgs, tacksetMsgs, schedsetMsgs, cntrstMsgs, synchsMsgs]

/-- No message of `TMSEND` or `HPCAP` has a wait (R177, R186). -/
theorem waitCount_msgs_banks {s : State} (h : s.opr = 0x6#4 ∨ s.opr = 0x7#4) : waitCount (msgs s) = 0 := by
  rcases h with h | h <;> rw [msgs, h] <;> rfl

/-- `XFER` has one message (R101). -/
theorem msgs_length_xfer {s : State} (h : s.opr = 0x1#4) : (msgs s).length = 1 := by
  rw [msgs, h]; rfl

theorem exchangesLeft_le {s : State} (h : Running s) (hp : s.ph ≠ .idle) :
    exchangesLeft s ≤ 12 * (msgs s).length := by
  rw [exchangesLeft_running hp, h.count]
  omega

/-- Settles O41: the message list bounds what the request has left, and the run uses up no more. -/
theorem everyRequestEnds : Obligations.EveryRequestEnds := by
  intro s h hq hp
  obtain ⟨e, w, t, hrun, hidle, hdone, hcount, he, hw⟩ := run_to_idle h hq (fun hidle => absurd hidle hp)
  have he : e ≤ 12 * (msgs s).length := he.trans (exchangesLeft_le (h.running hp) hp)
  have hw : w ≤ waitCount (msgs s) := hw.trans (waitsLeft_le (h.running hp))
  refine ⟨e + w, e, t, hrun, hidle, hdone, hcount, Nat.le_add_right e w, ?_, ?_, fun hopr => ?_, fun hopr => ?_⟩
  · have := msgs_length_le s
    omega
  · have := waitCount_msgs_le s
    omega
  · have := waitCount_msgs_banks hopr
    omega
  · have hlength := msgs_length_xfer hopr
    have hwaits : waitCount (msgs s) ≤ (msgs s).length := List.countP_le_length
    omega

end Sys2Proof.Machine
end
